-- ==== Sys2Proof/Word.lean ====
section
/-! DEFINITION. The ET460's bytes, words, station addresses and per-channel triples. -/

namespace Sys2Proof

/-- One byte of a frame, of a reply block or of the store. -/
abbrev Byte := BitVec 8

/-- A set of sixteen event entries; bit k is entry k (R180). -/
abbrev EventSet := BitVec 16

/-- A station address, 0..47. -/
abbrev Addr := Fin 48

/-- The three channels, in the order every field uses: R, G, B. -/
inductive Channel where
  | r | g | b
  deriving DecidableEq, Repr

/-- One value per channel. -/
structure Rgb (α : Type) where
  r : α
  g : α
  b : α
  deriving DecidableEq, Repr

/-- The value of one channel. -/
def Rgb.get {α : Type} (v : Rgb α) : Channel → α
  | .r => v.r
  | .g => v.g
  | .b => v.b

/-- The triple with one channel's value replaced. -/
def Rgb.set {α : Type} (v : Rgb α) (c : Channel) (x : α) : Rgb α :=
  match c with
  | .r => { v with r := x }
  | .g => { v with g := x }
  | .b => { v with b := x }

/-- The same value in every channel. -/
def Rgb.all {α : Type} (x : α) : Rgb α := ⟨x, x, x⟩

/-- A function applied to every channel. -/
def Rgb.map {α β : Type} (f : α → β) (v : Rgb α) : Rgb β := ⟨f v.r, f v.g, f v.b⟩

/-- A function of two triples, channel by channel. -/
def Rgb.map₂ {α β γ : Type} (f : α → β → γ) (v : Rgb α) (w : Rgb β) : Rgb γ :=
  ⟨f v.r w.r, f v.g w.g, f v.b w.b⟩

/-- Some channel satisfies the test. -/
def Rgb.any {α : Type} (v : Rgb α) (p : α → Bool) : Bool := p v.r || p v.g || p v.b

/-- A byte read as a station address: 0..47 only. -/
def addrOf? (x : Byte) : Option Addr :=
  if h : x.toNat < 48 then some ⟨x.toNat, h⟩ else none

/-- A station address as the byte that carries it. -/
def addrByte (a : Addr) : Byte := BitVec.ofNat 8 a.val

end Sys2Proof
end

