-- ==== Sys2Proof/Syntax.lean ====
section
/-! DEFINITION. The commands of the ET460: one constructor of `Instr` per row of spec/opcode_table.json, with what the
outside brings at that event. Moments are in µs on one fixed clock (log 1), pulse lengths and gaps in ns. -/

namespace Sys2Proof

/-- An own SOF: the moment of its edge, and the length in ns of the pulse that it made on the line. -/
structure SofSent where
  moment : Nat
  pulse : Nat
  deriving DecidableEq, Repr

/-- What a malformed frame was found by (R59): the bits of its main part received so far, first bit first, and what was seen
then. -/
inductive Finding where
  /-- The end of a byte that fails its test: header, source, target or CRC. -/
  | byteEnd (bits : List Bool)
  /-- A pulse of `pulse` ns in the main part. -/
  | symbol (bits : List Bool) (pulse : Nat)
  /-- An edge `gap` ns after the end of the last bit. -/
  | framing (bits : List Bool) (gap : Nat)
  /-- EOF. -/
  | eof (bits : List Bool)
  /-- A pulse of `pulse` ns in place of the station's own SOF. -/
  | ownSof (pulse : Nat)
  deriving DecidableEq, Repr

/-- What a reply block in error was found by, with what was seen (R66). -/
inductive ReplyFinding where
  /-- A pulse of `pulse` ns in the block. -/
  | symbol (pulse : Nat)
  /-- The block ended after `bits` bits. -/
  | midByte (bits : Nat)
  /-- The block went on to its bit number `bits`. -/
  | pastSize (bits : Nat)
  /-- A dominant edge `gap` ns after the end of the block. -/
  | edge (gap : Nat)
  deriving DecidableEq, Repr

/-- A reply block in error: its position in the window, counted from 1, and what was seen. -/
structure ReplyError where
  pos : Nat
  finding : ReplyFinding
  deriving DecidableEq, Repr

/-- The commands: the 61 rows of the table. -/
inductive Instr where
  /-- RESET: power-on, or the reset line is asserted. -/
  | reset
  /-- RESET_RELEASE at moment `t`, with FXS at level `fxs`. -/
  | resetRelease (t : Nat) (fxs : Bool)
  /-- END_OF_LOADING. -/
  | endOfLoading
  /-- FSYNC_EDGE: a rising edge at moment `t`. -/
  | fsyncEdge (t : Nat)
  /-- SUBSTITUTE_TICK: the sync-loss timer expires. -/
  | substituteTick
  /-- POLL_TIMER_EXPIRY. -/
  | pollTimerExpiry
  /-- TEMPERATURE_READ_COMPLETION: a reading in 1/16 °C, or none for "no response". -/
  | temperatureReadCompletion (outcome : Option Int)
  /-- SENSE_WINDOW_OPEN: SWIN rises. -/
  | senseWindowOpen
  /-- SENSE_WINDOW_CLOSE: SWIN falls. -/
  | senseWindowClose
  /-- COUNT_ARRIVAL: the count, or none for "no response". -/
  | countArrival (outcome : Option (BitVec 16))
  /-- INTERVAL_TIMER_EXPIRY. -/
  | intervalTimerExpiry
  /-- SETTLE_TIMEOUT. -/
  | settleTimeout
  /-- RECEIVER_READY: 4 bit times of recessive time in HUNT. -/
  | receiverReady
  /-- TRANSMIT_START: the line is idle, and an own frame, where there is one to send, is opened by `sof`. -/
  | transmitStart (sof : SofSent)
  /-- ARBITRATION_LOSS: symbol number `pos` of what is being sent read back as a pulse of `pulse` ns. -/
  | arbitrationLoss (pos pulse : Nat)
  /-- BIT_ERROR: symbol number `pos` of what is being sent read back as a pulse of `pulse` ns. -/
  | bitError (pos pulse : Nat)
  /-- SEND_SYMBOL_ERROR: symbol number `pos` of what is being sent read back as a pulse of `pulse` ns. -/
  | sendSymbolError (pos pulse : Nat)
  /-- MALFORMED_FRAME. -/
  | malformedFrame (f : Finding)
  /-- OWN_NOTICE_COMPLETE. -/
  | ownNoticeComplete
  /-- OWN_ASK_COMPLETE. -/
  | ownAskComplete
  /-- OWN_STAKE_COMPLETE. -/
  | ownStakeComplete
  /-- OWN_MUSTER_COMPLETE. -/
  | ownMusterComplete
  /-- NOTICE_RECEIVED: source, the three estimates, the flags byte. -/
  | noticeReceived (src : Byte) (lum : Rgb (BitVec 16)) (flags : Byte)
  /-- MUSTER_RECEIVED: source, start address. -/
  | musterReceived (src start : Byte)
  /-- STAKE_RECEIVED: source, wanted address, UID, mode byte. -/
  | stakeReceived (src tgt : Byte) (uid : BitVec 64) (mode : Byte)
  /-- CAPABILITY: an ASK with selector 0x00. -/
  | capability (src tgt : Byte)
  /-- STATUS: an ASK with selector 0x01. -/
  | status (src tgt : Byte)
  /-- STATUS_CLEAR: an ASK with selector 0x02. -/
  | statusClear (src tgt : Byte)
  /-- IDENTITY: an ASK with selector 0x03. -/
  | identity (src tgt : Byte)
  /-- GAINS: an ASK with selector 0x04. -/
  | gains (src tgt : Byte)
  /-- TARGETS: an ASK with selector 0x05. -/
  | targets (src tgt : Byte)
  /-- STORE_STATE: an ASK with selector 0x06. -/
  | storeState (src tgt : Byte)
  /-- PAGE: an ASK with selector 0x80 + page. -/
  | page (src tgt : Byte) (page : BitVec 4)
  /-- UNKNOWN_SELECTOR: an ASK with any other selector. -/
  | unknownSelector (src tgt selector : Byte)
  /-- ARM: FIXTURE code 0x01, with the bytes after the code. -/
  | arm (src tgt : Byte) (rest : List Byte)
  /-- DISARM: FIXTURE code 0x04, with the bytes after the code. -/
  | disarm (src tgt : Byte) (rest : List Byte)
  /-- BURN: FIXTURE code 0x02, with the bytes after the code: offset, data. -/
  | burn (src tgt : Byte) (args : List Byte)
  /-- LOCK: FIXTURE code 0x03, with the bytes after the code: mark byte, ignored bytes. -/
  | lock (src tgt : Byte) (args : List Byte)
  /-- UNKNOWN_COMMAND: a FIXTURE with any other code. -/
  | unknownCommand (src tgt code : Byte) (rest : List Byte)
  /-- CONTEST_BYTE_RECEIVED. -/
  | contestByteReceived (value : Byte)
  /-- MUSTER_BYTE_RECEIVED. -/
  | musterByteReceived (value : Byte)
  /-- ANSWER_BLOCK_RECEIVED: the block's bytes, its CRC-8 last. -/
  | answerBlockReceived (block : List Byte)
  /-- FIXTURE_STATUS_BYTE_RECEIVED. -/
  | fixtureStatusByteReceived (value : Byte)
  /-- REPLY_BLOCK_ERROR. -/
  | replyBlockError (e : ReplyError)
  /-- OWN_REPLY_COMPLETE. -/
  | ownReplyComplete
  /-- FRAME_EOF. -/
  | frameEof
  /-- REPORT_TIMER_DUE. -/
  | reportTimerDue
  /-- SPACING_COUNT_FULL. -/
  | spacingCountFull
  /-- LISTEN_END. -/
  | listenEnd
  /-- SLOT_STALE. -/
  | slotStale
  /-- SLOT_REMOVAL. -/
  | slotRemoval
  /-- DRIVER_TRANSFER_COMPLETE. -/
  | driverTransferComplete
  /-- SILENCE_EXPIRY. -/
  | silenceExpiry
  /-- DETACH at moment `t`: the own stage has conducted for `onTime` µs with the line dominant. -/
  | detach (t onTime : Nat)
  /-- DETACH_RECOVERY; `conducting` tells that the own stage still conducts. -/
  | detachRecovery (conducting : Bool)
  /-- DETACH_HISTORY_CLEAR. -/
  | detachHistoryClear
  /-- BUS_STUCK_SET: another has held the line dominant for `dominant` µs. -/
  | busStuckSet (dominant : Nat)
  /-- BUS_STUCK_CLEAR: 4 bit times of recessive line. -/
  | busStuckClear
  /-- BURN_BYTE_COMPLETE; `missed` holds the bits that the cells did not take (0 in a sound part). -/
  | burnByteComplete (missed : Byte)
  /-- LOCK_COMPLETE. -/
  | lockComplete
  /-- START_OF_FRAME: another station's pulse of `pulse` ns ends a wait for an SOF; its edge came at moment `t`. -/
  | startOfFrame (t pulse : Nat)
  deriving DecidableEq, Repr

end Sys2Proof
end

