-- ==== Sys2Proof/Decode.lean ====
section
/-! DEFINITION. The words of the table. No row of spec/opcode_table.json gives bits: the commands are events, not words, so no
word spells one (log 20). -/

namespace Sys2Proof

/-- The command that a word spells by the table's bits: none, since no row gives bits (log 20). -/
def decodeTableWord (_nbits _w : Nat) : Option Instr := none

end Sys2Proof
end

