-- ==== Sys2Proof/Config.lean ====
section
/-! DEFINITION. What a single part fixes and the spec does not: the fused UID, and the free values: the bits of a cut-off burn, and the
two orders at a tick. None has a body: of the UID it can be proved that it is one that R90 allows, of a free value nothing. -/

namespace Sys2Proof.Config

/-- Which of the 2^64 − 2 UIDs that R90 allows is fused into this part (DESIGN CHOICE, log 6: left open). -/
opaque fusedUidIndex : Fin 18446744073709551614

/-- The 64-bit UID fused into this part: never all zeros and never all ones (R90). -/
def fusedUid : BitVec 64 := BitVec.ofNat 64 (fusedUidIndex.val + 1)

/-- FREE VALUE (R172, log 8): which of the intended bits a byte under burn has taken when a reset cuts the burn off.
The argument counts the resets that met a burn. -/
opaque resetBurnBits : Nat → Byte

/-- FREE VALUE (R139, log 33): a tick's own STALE notification reaches the engine before that tick does. The argument counts the
ticks before it. -/
opaque staleFirst : Nat → Bool

/-- FREE VALUE (R114, log 37): the hand-off of a slot that a tick has emptied is on its way to station identity when that tick's
command ends, so that a delivery at the same moment can come before it. The argument counts the ticks before it. -/
opaque handOffWaits : Nat → Bool

end Sys2Proof.Config
end

