-- ==== Sys2Proof/Machine/State.lean ====
section
/-! DEFINITION. The ET460's state, block by block, as plain data; the outcomes' reasons; the state at reset. -/

namespace Sys2Proof.Machine

/-! ### Reasons a step can stop -/

/-- No command of the ET460 ends in a fault: what goes wrong is a flag, an event or a count in `State`. -/
inductive Fault where
  deriving DecidableEq, Repr

/-- Why a command has no meaning here. -/
inductive Refusal where
  /-- Raised only by an arm of `exec` whose command has no meaning yet; safe (nothing can be proved of a next state). -/
  | notModelled (mnemonic : String)
  deriving DecidableEq, Repr

/-! ### Timebase, temperature, sensor bus -/

/-- Frame timebase (R1 to R5). Moments in µs. -/
structure Ftb where
  /-- Time of the most recent accepted FSYNC edge, or none. -/
  lastEdge : Option Nat
  /-- Moment of the sync-loss timer's next expiry; none while it is stopped. -/
  syncTimer : Option Nat
  nosync : Bool
  deriving DecidableEq, Repr

/-- Temperature monitor (R6 to R13). -/
structure Tmon where
  /-- T_f, in 1/16 °C. -/
  tf : Int
  /-- Moment of the poll timer's next expiry; none while it is stopped. -/
  pollTimer : Option Nat
  failRun : Nat
  validRun : Nat
  tfault : Bool
  hot : Bool
  crit : Bool
  deriving DecidableEq, Repr

/-- The two operations of the local sensor bus (R16). -/
inductive BusOp where
  | temperature | count
  deriving DecidableEq, Repr

/-- Local sensor bus arbiter (R14 to R17). -/
structure Lsb where
  inFlight : Option BusOp
  tmonWaiting : Bool
  sseqWaiting : Bool
  deriving DecidableEq, Repr

/-! ### Estimator and sequencer -/

/-- Luminance estimator (R18 to R33). -/
structure Lest where
  /-- Thermal factors f_c; none until loading ends. -/
  f : Option (Rgb Nat)
  /-- Aging factors a_c. -/
  a : Rgb Nat
  /-- Estimates L_c; none until loading ends. -/
  l : Option (Rgb Nat)
  /-- The own-flags set, in the bit order of R180. -/
  ownFlags : Byte
  /-- Last reported estimates. -/
  lRep : Option (Rgb Nat)
  /-- Last reported flags. -/
  flagsRep : Option Byte
  deriving DecidableEq, Repr

/-- Sense sequencer states. -/
inductive SeqState where
  | idle | due | armed | wait
  deriving DecidableEq, Repr

/-- Sense sequencer (R34 to R48). -/
structure Sseq where
  st : SeqState
  chan : Channel
  /-- Consecutive failures of each channel. -/
  fails : Rgb Nat
  /-- Late count outstanding. -/
  late : Bool
  settleRounds : Nat
  /-- Interval timer in ticks; none while stopped. -/
  interval : Option Nat
  /-- Settle timeout count in ticks; none while it does not run. -/
  settleCount : Option Nat
  /-- The lit channel of the reference group; none while the drive is off. -/
  drive : Option Channel
  settling : Bool
  senseFault : Bool
  heldTf : Int
  heldTfault : Bool
  deriving DecidableEq, Repr

/-- Levels of the input lines that have one: reset held (RSTN low), SWIN. -/
structure Pins where
  resetHeld : Bool
  swin : Bool
  deriving DecidableEq, Repr

/-! ### Frames -/

/-- The two modes of a STAKE. -/
inductive StakeMode where
  | fresh | held
  deriving DecidableEq, Repr

/-- The kinds of frame (R59). -/
inductive Kind where
  | stake | fixture | ask | notice | muster
  deriving DecidableEq, Repr

/-- What a main part carries after its target byte. -/
inductive Body where
  | stake (uid : BitVec 64) (mode : Byte)
  | fixture (payload : List Byte)
  | ask (selector : Byte)
  | notice (lum : Rgb (BitVec 16)) (flags : Byte)
  | muster (start : Byte)
  deriving DecidableEq, Repr

/-- A main part: source, target, and the kind with its payload. -/
structure Frame where
  src : Byte
  tgt : Byte
  body : Body
  deriving DecidableEq, Repr

/-- What the station is putting on the line: an own main part (R63) or one reply block (R67). -/
inductive Sending where
  | main (f : Frame)
  | contest (value : Byte)
  | status (value : Byte)
  | muster (value : Byte)
  /-- An answer block; `clears` is the captured latched set of a STATUS_CLEAR answer (R85). -/
  | answer (block : List Byte) (clears : Option EventSet)
  deriving DecidableEq, Repr

/-- The mark of the frame or block being sent (R60 to R62). The spec names its values and its reset; that it stays as an ended
attempt left it until the line's next event, and is none at once where an own main part completes, is the model's choice (log 35). -/
inductive OwnMark where
  | none | asSent | lost | abandoned | stopped
  deriving DecidableEq, Repr

/-- Receiver phases (R55). -/
inductive Phase where
  | hunt | ready | main | window
  deriving DecidableEq, Repr

/-- The line driver: driving dominant during the dominant part of a symbol being sent, and released otherwise (R49). -/
inductive Driver where
  | released | driving
  deriving DecidableEq, Repr

/-- The frame in reception (R57). -/
structure Reception where
  /-- The bytes received whole. -/
  bytes : List Byte
  /-- The bits of the current byte, the last in bit 0. -/
  shift : Byte
  /-- Bit position in the current byte. -/
  bitPos : Nat
  /-- The CRC-8 register. -/
  crc : Byte
  /-- The main part's length in bytes, once the header is valid. -/
  expected : Option Nat
  deriving DecidableEq, Repr

/-- What position 1 of a reply window has held, other than the station's own reply (R66, R95). -/
inductive FirstBlock where
  | nothing | delivered | error
  deriving DecidableEq, Repr

/-- An open reply window (R64 to R68). -/
structure Window where
  frame : Frame
  /-- The main part was this station's own (R63). -/
  own : Bool
  /-- Reply blocks seen: delivered, own or in error. That an ignored block is not counted is the model's choice (log 39). -/
  seen : Nat
  /-- Reply processing is running. -/
  running : Bool
  first : FirstBlock
  /-- The answer block kept for the own ASK, with its check (R82). -/
  answer : Option (Bool × List Byte)
  /-- Muster blocks delivered, for the own MUSTER (R81). -/
  musterCount : Nat
  /-- Value of the last of them. -/
  lastMuster : Option Byte
  deriving DecidableEq, Repr

/-- Content of the STAKE slot. -/
structure StakeReq where
  target : Addr
  mode : StakeMode
  uid : BitVec 64
  deriving DecidableEq, Repr

/-- Content of the ASK slot. -/
structure AskReq where
  target : Addr
  selector : Byte
  deriving DecidableEq, Repr

/-- An outbound slot: its pending content, the withdrawn mark, and the content held for after the withdrawn frame (R73). -/
structure OutSlot (α : Type) where
  content : Option α
  withdrawn : Bool
  held : Option α
  deriving DecidableEq, Repr

/-- An empty outbound slot. -/
def OutSlot.empty {α : Type} : OutSlot α := ⟨none, false, none⟩

/-- A captured answer (R83): the whole block, and for STATUS_CLEAR the latched set it carries. -/
structure Capture where
  block : List Byte
  clears : Option EventSet
  deriving DecidableEq, Repr

/-- Muster reply states (R80). -/
inductive MusterReply where
  | notReplying | waiting | done
  deriving DecidableEq, Repr

/-- Seam link controller: signalling, slots and replies (R49 to R89). -/
structure Slc where
  driver : Driver
  phase : Phase
  /-- Recessive time in bit times, as of the last line event. -/
  recessive : Nat
  /-- The frame in reception: none outside a frame. When it ends is the model's choice (log 40). -/
  rx : Option Reception
  window : Option Window
  tx : Option Sending
  /-- The number of the symbol being sent, from 0; 0 while nothing is. -/
  txPos : Nat
  mark : OwnMark
  stake : OutSlot StakeReq
  ask : OutSlot AskReq
  notice : OutSlot Unit
  /-- The content is the start address. -/
  muster : OutSlot Byte
  /-- Report timer in ticks remaining; none while stopped. -/
  reportTimer : Option Nat
  spacing : Nat
  /-- Deferred early request. -/
  deferred : Bool
  capture : Option Capture
  musterReply : MusterReply
  /-- A muster run is in progress. -/
  musterRun : Bool
  deriving DecidableEq, Repr

/-! ### Confinement and identity -/

/-- Link states. -/
inductive LinkState where
  | active | quiet | detached | latched
  deriving DecidableEq, Repr

/-- Fault confinement (R147 to R158). Moments in µs. -/
structure Fc where
  link : LinkState
  tec : Nat
  recCount : Nat
  silenceTimer : Option Nat
  /-- The driver cut is open: the driver stage is off the line. -/
  cut : Bool
  /-- Driver-on time in µs as last measured. -/
  driverOn : Option Nat
  recoveryTimer : Option Nat
  /-- Moments of up to two earlier detaches, the earlier first. -/
  history : List Nat
  historyTimer : Option Nat
  /-- Stuck-line measure in µs as last measured. -/
  stuckFor : Option Nat
  busStuck : Bool
  deriving DecidableEq, Repr

/-- Identity states. -/
inductive IdState where
  | load | listen | claiming | run | unaddressed
  deriving DecidableEq, Repr

/-- The window decision of a STAKE frame in reception (R98, R99). -/
inductive Decision where
  | none | contested | yielding
  deriving DecidableEq, Repr

/-- Station identity (R90 to R107). -/
structure Sid where
  uid : BitVec 64
  st : IdState
  own : Option Addr
  candidate : Option Addr
  /-- Search start kept while the choice waits for ACTIVE, with whether all 48 addresses are examined (R93). -/
  search : Option (Addr × Bool)
  attempts : Nat
  listen : Option Nat
  reassert : Bool
  /-- The hand-off of a slot that has turned EMPTY by aging is on its way here (R114, R119). -/
  emptied : Bool
  decision : Decision
  deriving DecidableEq, Repr

/-! ### Peer table, target engine, driver port -/

/-- A slot of the peer table; each state carries exactly the fields that R108 makes present. -/
inductive PeerSlot where
  | empty
  | heard (heardAge tries : Nat)
  | fresh (lum : Rgb Nat) (flags : Byte) (dataAge heardAge : Nat)
  | stale (lum : Rgb Nat) (flags : Byte) (dataAge heardAge : Nat)
  | self
  deriving DecidableEq, Repr

/-- Peer table (R108 to R125). -/
structure Ptab where
  slots : Vector PeerSlot 48
  askTarget : Option Addr
  awaited : Bool
  heldId : IdState
  heldLink : LinkState
  deriving DecidableEq, Repr

/-- An entry of the target computation: estimates and flags. -/
structure Entry where
  lum : Rgb Nat
  flags : Byte
  deriving DecidableEq, Repr

/-- Target and gain engine (R126 to R146). -/
structure Tge where
  own : Option Entry
  /-- CRIT as handed straight from the temperature monitor. -/
  crit : Bool
  peers : Vector (Option Entry) 48
  size : Nat
  median : Option (Rgb Nat)
  target : Option (Rgb Nat)
  marks : Rgb Bool
  desired : Option (Rgb Nat)
  /-- Ceilinged gains g'_c. -/
  ceiled : Option (Rgb Nat)
  /-- Applied gains G_c. -/
  applied : Rgb Nat
  belowFloor : Bool
  floored : Bool
  deriving DecidableEq, Repr

/-- Driver port (R141 to R143). -/
structure Drvp where
  /-- The set being sent; none while idle. -/
  sending : Option (Rgb Nat)
  /-- The pending set. -/
  pending : Option (Rgb Nat)
  /-- The data bits that the last latch pulse gave to the driver chain, first bit first. -/
  latched : List Bool
  deriving DecidableEq, Repr

/-! ### Store and events -/

/-- The store's array: (address, byte) pairs, addresses strictly rising, no listed byte 0. -/
abbrev Memory := List Host.Cell

/-- What the CHAR section gives for one channel (R162). -/
structure CharChannel where
  lRef : Nat
  sRef : Nat
  /-- P[0..8]. -/
  curve : List Nat
  deriving DecidableEq, Repr

/-- The loaded parameter copy (R162 to R164). -/
structure Params where
  chars : Rgb CharChannel
  uncal : Bool
  /-- P, in ticks. -/
  period : Nat
  staleLimit : Nat
  goneLimit : Nat
  headroomLoss : Nat
  /-- φ. -/
  floorRatio : Nat
  gainFloor : Nat
  slewStep : Nat
  tHot : Nat
  tCrit : Nat
  settleLimit : Nat
  senseInterval : Nat
  faultMask : EventSet
  setDefault : Bool
  deriving DecidableEq, Repr

/-- A burn in progress (R168, R169). -/
inductive Burn where
  | bytes (offset : Nat) (data : List Byte) (index : Nat)
  /-- The mark byte, and the value byte 127 held when the LOCK was accepted. -/
  | lock (marks before : Byte)
  deriving DecidableEq, Repr

/-- The last result (R168). -/
inductive LastResult where
  | none | done | verify
  deriving DecidableEq, Repr

/-- Characterization store (R159 to R172). -/
structure Csto where
  array : Memory
  burn : Option Burn
  latch : Bool
  lastResult : LastResult
  fixtureEnable : Bool
  /-- The loaded parameter copy; none while the load state is "loading". -/
  loaded : Option Params
  deriving DecidableEq, Repr

/-- Event unit (R173 to R179). -/
structure Evu where
  raw : EventSet
  latched : EventSet
  marks : EventSet
  mask : EventSet
  /-- FLTN is driven active. -/
  faultLine : Bool
  deriving DecidableEq, Repr

/-! ### The whole part -/

/-- The whole part, and the queue of waiting commands. -/
structure State where
  pins : Pins
  ftb : Ftb
  tmon : Tmon
  lsb : Lsb
  lest : Lest
  sseq : Sseq
  slc : Slc
  fc : Fc
  sid : Sid
  ptab : Ptab
  tge : Tge
  drvp : Drvp
  csto : Csto
  evu : Evu
  /-- The MODEL's field: how many events have used free values: cut-off burns (log 8) and ticks (logs 33, 37). -/
  freeReads : Nat
  /-- Waiting commands, first in, first out. -/
  pending : List Instr
  deriving DecidableEq, Repr

/-! ### Reset values, block by block -/

/-- R5. -/
def Ftb.reset : Ftb := { lastEdge := none, syncTimer := none, nosync := false }

/-- R13. -/
def Tmon.reset : Tmon :=
  { tf := 320, pollTimer := none, failRun := 0, validRun := 0, tfault := true, hot := false, crit := false }

/-- R17. -/
def Lsb.reset : Lsb := { inFlight := none, tmonWaiting := false, sseqWaiting := false }

/-- R33: the own-flags set holds TFAULT (bit 2) and SETTLING (bit 4). -/
def Lest.reset : Lest :=
  { f := none, a := Rgb.all 32768, l := none, ownFlags := 0x14, lRep := none, flagsRep := none }

/-- R48. -/
def Sseq.reset : Sseq :=
  { st := .idle, chan := .r, fails := Rgb.all 0, late := false, settleRounds := 0, interval := none,
    settleCount := none, drive := none, settling := true, senseFault := false, heldTf := 320, heldTfault := true }

/-- R69 and R89. -/
def Slc.reset : Slc :=
  { driver := .released, phase := .hunt, recessive := 0, rx := none, window := none, tx := none, txPos := 0,
    mark := .none, stake := .empty, ask := .empty, notice := .empty, muster := .empty, reportTimer := none, spacing := 4,
    deferred := false, capture := none, musterReply := .notReplying, musterRun := false }

/-- R158. -/
def Fc.reset : Fc :=
  { link := .active, tec := 0, recCount := 0, silenceTimer := none, cut := false, driverOn := none, recoveryTimer := none,
    history := [], historyTimer := none, stuckFor := none, busStuck := false }

/-- R107, for the part with UID `uid`. -/
def Sid.reset (uid : BitVec 64) : Sid :=
  { uid := uid, st := .load, own := none, candidate := none, search := none, attempts := 0, listen := none,
    reassert := false, emptied := false, decision := .none }

/-- R125. -/
def Ptab.reset : Ptab :=
  { slots := Vector.replicate 48 .empty, askTarget := none, awaited := false, heldId := .load, heldLink := .active }

/-- R146. -/
def Tge.reset : Tge :=
  { own := none, crit := false, peers := Vector.replicate 48 none, size := 0, median := none, target := none,
    marks := Rgb.all false, desired := none, ceiled := none, applied := Rgb.all 3840, belowFloor := false,
    floored := false }

/-- R143, with what the driver chain holds. -/
def Drvp.reset (latched : List Bool) : Drvp := { sending := none, pending := none, latched := latched }

/-- R161 and R172, with what the array holds. -/
def Csto.reset (array : Memory) : Csto :=
  { array := array, burn := none, latch := false, lastResult := .none, fixtureEnable := false, loaded := none }

/-- R179: the raw set holds TFAULT (entry 0) alone. -/
def Evu.reset : Evu := { raw := 0x0001, latched := 0, marks := 0, mask := 0, faultLine := false }

/-- The part at reset, the reset line still held: a part whose array is erased (R159), with the fused UID. -/
def State.reset : State :=
  { pins := { resetHeld := true, swin := false }, ftb := Ftb.reset, tmon := Tmon.reset, lsb := Lsb.reset,
    lest := Lest.reset, sseq := Sseq.reset, slc := Slc.reset, fc := Fc.reset, sid := Sid.reset Config.fusedUid,
    ptab := Ptab.reset, tge := Tge.reset, drvp := Drvp.reset [], csto := Csto.reset [], evu := Evu.reset,
    freeReads := 0, pending := [] }

end Sys2Proof.Machine
end

