-- ==== Sys2Proof/Machine/Ops.lean ====
section
/-! DEFINITION. The named operations over State: block updates, the store's array, the two check registers, byte packing,
the outbound slots, and the one gate every command but RESET and RESET_RELEASE passes. -/

namespace Sys2Proof.Machine

/-! ### Block updates -/

/-- The state with `pins` replaced. -/
def State.setPins (s : State) (x : Pins) : State := { s with pins := x }

/-- The state with `ftb` replaced. -/
def State.setFtb (s : State) (x : Ftb) : State := { s with ftb := x }

/-- The state with `tmon` replaced. -/
def State.setTmon (s : State) (x : Tmon) : State := { s with tmon := x }

/-- The state with `lsb` replaced. -/
def State.setLsb (s : State) (x : Lsb) : State := { s with lsb := x }

/-- The state with `lest` replaced. -/
def State.setLest (s : State) (x : Lest) : State := { s with lest := x }

/-- The state with `sseq` replaced. -/
def State.setSseq (s : State) (x : Sseq) : State := { s with sseq := x }

/-- The state with `slc` replaced. -/
def State.setSlc (s : State) (x : Slc) : State := { s with slc := x }

/-- The state with `fc` replaced. -/
def State.setFc (s : State) (x : Fc) : State := { s with fc := x }

/-- The state with `sid` replaced. -/
def State.setSid (s : State) (x : Sid) : State := { s with sid := x }

/-- The state with `ptab` replaced. -/
def State.setPtab (s : State) (x : Ptab) : State := { s with ptab := x }

/-- The state with `tge` replaced. -/
def State.setTge (s : State) (x : Tge) : State := { s with tge := x }

/-- The state with `drvp` replaced. -/
def State.setDrvp (s : State) (x : Drvp) : State := { s with drvp := x }

/-- The state with `csto` replaced. -/
def State.setCsto (s : State) (x : Csto) : State := { s with csto := x }

/-- The state with `evu` replaced. -/
def State.setEvu (s : State) (x : Evu) : State := { s with evu := x }

/-- The state with `freeReads` replaced. -/
def State.setFreeReads (s : State) (x : Nat) : State := { s with freeReads := x }

/-- The state with `pending` replaced. -/
def State.setPending (s : State) (x : List Instr) : State := { s with pending := x }

/-! ### The gate -/

/-- A command that the part takes only out of reset: while the reset line is held it sees no edge and no line event and no
operation is running (R1, R49, R69), so the state stays as it is (log 5). -/
def whenLive (s after : State) : Host.Outcome State Fault Refusal :=
  .next (if s.pins.resetHeld then s else after)

/-! ### Times, in µs -/

/-- Moment `t` after `d` milliseconds. -/
def afterMs (t d : Nat) : Nat := t + d * 1000

/-! ### The store's array (R159) -/

/-- The byte at an address; an unlisted byte is erased and reads 0. -/
def Memory.read : Memory → Nat → Byte
  | [], _ => 0
  | (k, b) :: rest, a => if k = a then b else Memory.read rest a

/-- The array with one byte replaced, in canonical form. -/
def Memory.write : Memory → Nat → Byte → Memory
  | [], a, b => if b = 0 then [] else [(a, b)]
  | (k, c) :: rest, a, b =>
    if a < k then (if b = 0 then (k, c) :: rest else (a, b) :: (k, c) :: rest)
    else if a = k then (if b = 0 then rest else (a, b) :: rest)
    else (k, c) :: Memory.write rest a b

/-- Programming sets bits and clears none: the byte becomes its old value OR the bits programmed (R159). -/
def Memory.program (m : Memory) (a : Nat) (bits : Byte) : Memory := m.write a (m.read a ||| bits)

/-- `n` bytes from address `a`. -/
def Memory.readMany (m : Memory) (a n : Nat) : List Byte := (List.range n).map fun k => m.read (a + k)

/-- Addresses strictly rising from `low`, inside the array, and no listed byte equal to the erased value. -/
def Memory.wfFrom : Nat → Memory → Bool
  | _, [] => true
  | low, (k, b) :: rest => decide (low ≤ k) && decide (k < 128) && b != 0 && Memory.wfFrom (k + 1) rest

/-- The array is in canonical form. -/
def Memory.wf (m : Memory) : Bool := Memory.wfFrom 0 m

/-! ### Check registers -/

/-- `n` shifts of the CRC-8 register (R58). -/
def crc8Shift : Nat → Byte → Byte
  | 0, r => r
  | n + 1, r => crc8Shift n (if r.msb then (r <<< 1) ^^^ 0x07 else r <<< 1)

/-- The CRC-8 register after one more byte (R58). -/
def crc8Byte (r b : Byte) : Byte := crc8Shift 8 (r ^^^ b)

/-- The CRC-8 over a list of bytes, from 0xFF (R58). -/
def crc8 (bytes : List Byte) : Byte := bytes.foldl crc8Byte 0xFF

/-- `n` shifts of the CRC-16 register (R162). -/
def crc16Shift : Nat → BitVec 16 → BitVec 16
  | 0, r => r
  | n + 1, r => crc16Shift n (if r.msb then (r <<< 1) ^^^ 0x1021 else r <<< 1)

/-- The CRC-16 register after one more byte, which enters in the upper eight bits (R162). -/
def crc16Byte (r : BitVec 16) (b : Byte) : BitVec 16 := crc16Shift 8 (r ^^^ (b ++ (0 : Byte)))

/-- The CRC-16 over a list of bytes, from 0xFFFF (R162). -/
def crc16 (bytes : List Byte) : BitVec 16 := bytes.foldl crc16Byte 0xFFFF

/-! ### Byte packing, most significant byte first (R180) -/

/-- A 16-bit field as two bytes. -/
def bytes16 (x : BitVec 16) : List Byte := [x.extractLsb' 8 8, x.extractLsb' 0 8]

/-- A number as a 16-bit field. -/
def natBytes16 (n : Nat) : List Byte := bytes16 (BitVec.ofNat 16 n)

/-- A triple of 16-bit fields in channel order. -/
def rgbBytes (v : Rgb Nat) : List Byte := natBytes16 v.r ++ natBytes16 v.g ++ natBytes16 v.b

/-- The UID as eight bytes. -/
def bytes64 (x : BitVec 64) : List Byte :=
  [x.extractLsb' 56 8, x.extractLsb' 48 8, x.extractLsb' 40 8, x.extractLsb' 32 8,
   x.extractLsb' 24 8, x.extractLsb' 16 8, x.extractLsb' 8 8, x.extractLsb' 0 8]

/-- Two bytes as a number. -/
def word16 (hi lo : Byte) : Nat := hi.toNat * 256 + lo.toNat

/-- A condition as a byte: 1 or 0. -/
def boolByte (b : Bool) : Byte := if b then 1 else 0

/-! ### Numbers -/

/-- A value lowered or raised into `lo..hi`. -/
def clampNat (lo hi x : Nat) : Nat := max lo (min hi x)

/-- An integer lowered or raised into `lo..hi`. -/
def clampInt (lo hi x : Int) : Int := max lo (min hi x)

/-- A vector mapped through its list, so that it can be computed in a proof. -/
def mapVec {α β : Type} {n : Nat} (f : α → β) (v : Vector α n) : Vector β n :=
  ⟨(v.toList.map f).toArray, by simp⟩

/-! ### Outbound slots (R70, R72, R73) -/

/-- A fill with content `x`. `onLine` tells that this slot's frame is on the line, `replace` what a fill does to a pending
frame that is on the line and not withdrawn: the STAKE slot takes the new content (log 30), the others ignore it. -/
def OutSlot.fill {α : Type} (sl : OutSlot α) (onLine replace : Bool) (x : α) : OutSlot α :=
  match sl.content with
  | none => { sl with content := some x }
  | some _ =>
    if onLine then
      if sl.withdrawn then { sl with held := some x }
      else if replace then { sl with content := some x }
      else sl
    else { sl with content := some x }

/-- A withdrawal by the owner (R73): a frame not on the line is removed; one on the line is marked, and a content held for
after it is dropped. -/
def OutSlot.withdraw {α : Type} (sl : OutSlot α) (onLine : Bool) : OutSlot α :=
  match sl.content with
  | none => sl
  | some _ => if onLine then { sl with withdrawn := true, held := none } else .empty

/-- The end of an attempt that did not complete (R72, R73): the frame stays pending, or, withdrawn, gives way to the held
content. -/
def OutSlot.attemptEnd {α : Type} (sl : OutSlot α) : OutSlot α :=
  if sl.withdrawn then { content := sl.held, withdrawn := false, held := none } else sl

/-- The completion of an attempt (R72): the slot empties, and a held content becomes pending. -/
def OutSlot.complete {α : Type} (sl : OutSlot α) : OutSlot α :=
  { content := sl.held, withdrawn := false, held := none }

end Sys2Proof.Machine
end

