-- ==== Sys2Proof/Machine/Operands.lean ====
section
/-! DEFINITION. What a command's operands mean: pulses, gaps and read-back (R50 to R54, R60), the main part and its tests
(R57 to R59, R180), reply blocks (R65, R66), and the one-byte codes (R84, R165, R181). -/

namespace Sys2Proof.Machine

/-! ### Symbols and pulses -/

/-- A symbol that a station sends (R50). -/
inductive Sent where
  | one | zero | sof
  deriving DecidableEq, Repr

/-- How long the symbol is driven dominant, in ns (R50). -/
def Sent.dominantNs : Sent → Nat
  | .one => 1000
  | .zero => 3000
  | .sof => 10000

/-- How long the line then rests recessive, in ns (R50). -/
def Sent.recessiveNs : Sent → Nat
  | .one => 3000
  | .zero => 1000
  | .sof => 2000

/-- One bit time in ns. -/
def bitTimeNs : Nat := 4000

/-- Four bit times in µs. -/
def fourBitTimesUs : Nat := 16

/-- The class of a dominant pulse (R51). -/
inductive PulseClass where
  | one | zero | sof | error
  deriving DecidableEq, Repr

/-- The bands of R51, their ends included, in ns. -/
def pulseClass (ns : Nat) : PulseClass :=
  if 500 ≤ ns ∧ ns ≤ 1500 then .one
  else if 2500 ≤ ns ∧ ns ≤ 3500 then .zero
  else if 9000 ≤ ns ∧ ns ≤ 11000 then .sof
  else .error

/-- The pulse is a bit. -/
def isBitPulse (ns : Nat) : Bool := pulseClass ns = .one || pulseClass ns = .zero

/-- What reading a sent symbol back shows (R60). -/
inductive ReadBack where
  | asSent | lost | bitError | symbolError
  deriving DecidableEq, Repr

/-- The table of R60. A 1 read as 0 is `lost`: loss of arbitration, or an abandoned reply, as the field gives (R61). -/
def readBack (sent : Sent) (ns : Nat) : ReadBack :=
  match sent with
  | .one =>
    if pulseClass ns = .one then .asSent
    else if pulseClass ns = .zero then .lost
    else if ns < 500 then .bitError
    else .symbolError
  | .zero => if pulseClass ns = .zero then .asSent else if ns < 2500 then .bitError else .symbolError
  | .sof => if pulseClass ns = .sof then .asSent else if ns < 9000 then .bitError else .symbolError

/-- What an edge means by the recessive time before it, measured from the end of the last bit (R53, R54). -/
inductive GapClass where
  | nextBit | framingError | replyEdge | afterEof
  deriving DecidableEq, Repr

/-- R53 and R54, the gap in ns. -/
def gapClass (ns : Nat) : GapClass :=
  if ns < bitTimeNs then .nextBit
  else if ns < 2 * bitTimeNs then .framingError
  else if ns < 4 * bitTimeNs then .replyEdge
  else .afterEof

/-- The bits of a byte, most significant first (R50). -/
def byteBits (b : Byte) : List Bool := (List.range 8).map b.getMsbD

/-- The bits of a block, in line order. -/
def lineBits (bytes : List Byte) : List Bool := (bytes.map byteBits).flatten

/-- The symbol that sends a bit (R50). -/
def bitSymbol (b : Bool) : Sent := if b then .one else .zero

/-- The bit that a symbol stands for. -/
def Sent.bit? : Sent → Option Bool
  | .one => some true
  | .zero => some false
  | .sof => none

/-- The bit that a pulse is classed as (R51). -/
def pulseBit? (ns : Nat) : Option Bool :=
  match pulseClass ns with
  | .one => some true
  | .zero => some false
  | .sof | .error => none

/-- The symbols of a block. -/
def blockSymbols (bytes : List Byte) : List Sent := (lineBits bytes).map bitSymbol

/-! ### The main part -/

/-- Kind codes (R59, THE MAIN PART). -/
def Kind.code : Kind → Nat
  | .stake => 1
  | .fixture => 2
  | .ask => 3
  | .notice => 4
  | .muster => 5

/-- The kind with a code. -/
def kindOf? : Nat → Option Kind
  | 1 => some .stake
  | 2 => some .fixture
  | 3 => some .ask
  | 4 => some .notice
  | 5 => some .muster
  | _ => none

/-- The payload lengths of a kind (R59). -/
def Kind.lengthOk : Kind → Nat → Bool
  | .stake, n => n = 9
  | .fixture, n => 1 ≤ n && n ≤ 10
  | .ask, n => n = 1
  | .notice, n => n = 7
  | .muster, n => n = 1

/-- The sources of a kind (R59): 0..47, and 63 also for STAKE. -/
def Kind.sourceOk (k : Kind) (src : Byte) : Bool := src.toNat < 48 || (k = .stake && src = 63)

/-- The targets of a kind (R59): 62 for NOTICE and MUSTER, 0..47 for the others. -/
def Kind.targetOk (k : Kind) (tgt : Byte) : Bool :=
  match k with
  | .notice | .muster => tgt = 62
  | _ => tgt.toNat < 48

/-- The header byte names a kind and a length of that kind (R59). -/
def headerOk (h : Byte) : Bool :=
  match kindOf? (h.toNat / 16) with
  | some k => k.lengthOk (h.toNat % 16)
  | none => false

/-- The kind of a frame's body. -/
def Body.kind : Body → Kind
  | .stake _ _ => .stake
  | .fixture _ => .fixture
  | .ask _ => .ask
  | .notice _ _ => .notice
  | .muster _ => .muster

/-- The payload bytes (PAYLOAD OF EACH KIND, R180). -/
def Body.payload : Body → List Byte
  | .stake uid mode => bytes64 uid ++ [mode]
  | .fixture payload => payload
  | .ask selector => [selector]
  | .notice lum flags => bytes16 lum.r ++ bytes16 lum.g ++ bytes16 lum.b ++ [flags]
  | .muster start => [start]

/-- The header byte: kind code in the high four bits, payload length in the low four (R57). -/
def Body.header (b : Body) : Byte := BitVec.ofNat 8 (b.kind.code * 16 + b.payload.length)

/-- The bytes that the CRC-8 covers: header, source, target, payload (R58). -/
def Frame.covered (f : Frame) : List Byte := f.body.header :: f.src :: f.tgt :: f.body.payload

/-- The main part on the line (R57, R58). -/
def Frame.bytes (f : Frame) : List Byte := f.covered ++ [crc8 f.covered]

/-- The frame is malformed by its header, source or target (R59). The receiver's own judgement of its bits is the same
(`Frame.received_valid`). -/
def Frame.malformed (f : Frame) : Bool :=
  !(f.body.kind.lengthOk f.body.payload.length && f.body.kind.sourceOk f.src && f.body.kind.targetOk f.tgt)

/-! ### The receiver's assembly (R57) -/

/-- A frame in reception that has just begun (R52). -/
def Reception.fresh : Reception := { bytes := [], shift := 0, bitPos := 0, crc := 0xFF, expected := none }

/-- The last byte of the main part, its CRC byte, has been received. -/
def Reception.complete (r : Reception) : Bool := r.expected = some r.bytes.length && r.bitPos = 0

/-- The main part's length that a header byte gives, where the header is valid (R57, R59). -/
def expectedOf (header : Byte) : Option Nat := if headerOk header then some (4 + header.toNat % 16) else none

/-- A byte is whole: the header gives the expected length, and every byte but the CRC byte enters the register (R57). -/
def Reception.byte (r : Reception) (b : Byte) : Reception :=
  { bytes := r.bytes ++ [b], shift := 0, bitPos := 0,
    crc := if r.expected = some (r.bytes.length + 1) then r.crc else crc8Byte r.crc b
    expected := if r.bytes.isEmpty then expectedOf b else r.expected }

/-- A byte with one more bit shifted in at its low end. -/
def shiftIn (x : Byte) (b : Bool) : Byte := (x <<< 1) ||| (if b then 1 else 0)

/-- One more bit of the main part, most significant bit first (R57). -/
def Reception.bit (r : Reception) (b : Bool) : Reception :=
  if r.bitPos = 7 then r.byte (shiftIn r.shift b) else { r with shift := shiftIn r.shift b, bitPos := r.bitPos + 1 }

/-- The reception of a main part after its first bits. -/
def Reception.ofBits (bits : List Bool) : Reception := bits.foldl Reception.bit .fresh

/-- The tests of R59 on the bytes received so far: header, source and target as each is received, and at the end the CRC byte
against the register. -/
def Reception.testsPass (r : Reception) : Bool :=
  match r.bytes, (r.bytes[0]?).bind fun h => kindOf? (h.toNat / 16) with
  | h :: rest, some k =>
    headerOk h && (rest[0]?).all k.sourceOk && (rest[1]?).all k.targetOk &&
      (!r.complete || r.bytes.getLast? = some r.crc)
  | [], _ => true
  | _ :: _, none => false

/-- The main part is whole and passes its tests: valid at an EOB that no edge precedes (R57). -/
def Reception.valid (r : Reception) : Bool := r.complete && r.testsPass

/-- What was seen is a finding of R59, with the continuation and gap rules of R53 and R54: the received bits are assembled, and
the header's length and the register judge them. An own SOF too long for its band is one at the station that sent it (R62). -/
def findingFound : Finding → Bool
  | .byteEnd bits => !(Reception.ofBits bits).testsPass
  | .symbol _ pulse => !isBitPulse pulse
  | .framing bits gap =>
    if (Reception.ofBits bits).complete then gapClass gap = .nextBit || gapClass gap = .framingError
    else gapClass gap = .framingError || gapClass gap = .replyEdge
  | .eof bits => !(Reception.ofBits bits).complete
  | .ownSof pulse => 11000 < pulse

/-- What was seen is EOF. -/
def isEof : Finding → Bool
  | .eof _ => true
  | .byteEnd _ | .symbol _ _ | .framing _ _ | .ownSof _ => false

/-- The frame in reception at the EOB of its main part (R57). -/
def Frame.received (f : Frame) : Reception := .ofBits (lineBits f.bytes)

/-! ### Reply blocks -/

/-- Reply blocks allowed in a window (R65). -/
def Kind.blocksAllowed : Kind → Nat
  | .stake | .fixture | .ask => 1
  | .notice => 0
  | .muster => 16

/-- The largest size of a reply block in bytes (R65). -/
def Kind.blockMax : Kind → Nat
  | .ask => 16
  | _ => 1

/-- What was seen puts a reply block of that window in error (R66). -/
def replyFindingFound (k : Kind) : ReplyFinding → Bool
  | .symbol pulse => !isBitPulse pulse
  | .midByte bits => bits % 8 != 0
  | .pastSize bits => 8 * k.blockMax < bits
  | .edge gap => gapClass gap = .framingError

/-- The recessive time, in whole bit times, when a reply block is found in error: none at a pulse or its edge, one at the end of a
block that no edge has continued (R51, R53). -/
def findingRecessive : ReplyFinding → Nat
  | .midByte _ => 1
  | .symbol _ | .pastSize _ | .edge _ => 0

/-- The bytes of what is being sent. -/
def Sending.bytes : Sending → List Byte
  | .main f => f.bytes
  | .contest v | .status v | .muster v => [v]
  | .answer block _ => block

/-- The symbols of what is being sent: an SOF opens a main part, a reply block has none (R52, R64). -/
def Sending.symbols : Sending → List Sent
  | .main f => .sof :: blockSymbols f.bytes
  | x => blockSymbols x.bytes

/-- How symbol number `pos` of what is being sent reads back; none where there is no such symbol. -/
def Sending.readBack (x : Sending) (pos ns : Nat) : Option ReadBack :=
  (x.symbols[pos]?).map fun sent => Machine.readBack sent ns

/-- An answer block: status, data, and the CRC-8 over both (R66, R83). -/
def answerBlock (status : Byte) (data : List Byte) : List Byte :=
  (status :: data) ++ [crc8 (status :: data)]

/-- The check of a received answer block (R66): two bytes at least, and the last the CRC-8 over those before it. -/
def answerCheck (block : List Byte) : Bool :=
  2 ≤ block.length && block.getLast? = some (crc8 block.dropLast)

/-! ### Codes -/

/-- Answer status OK (R84). -/
def answerOk : Byte := 0x00
/-- Answer status BUSY (R84). -/
def answerBusy : Byte := 0x01
/-- Answer status UNKNOWN (R84). -/
def answerUnknown : Byte := 0x02

/-- The FIXTURE status bytes that a command can give (R165). -/
inductive FixtureStatus where
  | done | accepted | busy | noLatch | range | locked | refused | unknown
  deriving DecidableEq, Repr

/-- Their values. -/
def FixtureStatus.code : FixtureStatus → Byte
  | .done => 0x00
  | .accepted => 0x01
  | .busy => 0x02
  | .noLatch => 0x03
  | .range => 0x04
  | .locked => 0x05
  | .refused => 0x07
  | .unknown => 0x08

/-- Identity state codes (R181). -/
def IdState.code : IdState → Byte
  | .load => 0
  | .listen => 1
  | .claiming => 2
  | .run => 3
  | .unaddressed => 4

/-- Link state codes (R181). -/
def LinkState.code : LinkState → Byte
  | .active => 0
  | .quiet => 1
  | .detached => 2
  | .latched => 3

/-- Last result codes (R181). -/
def LastResult.code : LastResult → Byte
  | .done => 0x00
  | .verify => 0x06
  | .none => 0xFF

/-- STAKE mode byte (R181). -/
def StakeMode.code : StakeMode → Byte
  | .fresh => 0
  | .held => 1

/-- A received mode byte: 1 is HELD, any other value is taken as FRESH (R98, R181). -/
def stakeModeOf (mode : Byte) : StakeMode := if mode = 1 then .held else .fresh

/-- The CAPABILITY data of an answer block: triple and flags, where the block holds exactly seven data bytes and status OK
(R82). -/
def capabilityOf? : List Byte → Option (Rgb Nat × Byte)
  | [st, r1, r0, g1, g0, b1, b0, flags, _crc] =>
    if st = answerOk then some (⟨word16 r1 r0, word16 g1 g0, word16 b1 b0⟩, flags) else none
  | _ => none

end Sys2Proof.Machine
end

