-- ==== Sys2Proof/Machine/Flags.lean ====
section
/-! DEFINITION. Every flag the ET460 computes: the own-flags set (R26, R180), the five excluding flags (R118, R128), the raw
event set (R173), arisals and pulses (R174), the fault line (R175) and the clear request (R178). -/

namespace Sys2Proof.Machine

/-! ### Own flags -/

/-- The own-flags byte from the eight flags (R180). -/
def flagsByte (hot crit tfault uncal settling senseFault belowFloor nosync : Bool) : Byte :=
  (if hot then 0x01 else 0) ||| (if crit then 0x02 else 0) ||| (if tfault then 0x04 else 0) |||
  (if uncal then 0x08 else 0) ||| (if settling then 0x10 else 0) ||| (if senseFault then 0x20 else 0) |||
  (if belowFloor then 0x40 else 0) ||| (if nosync then 0x80 else 0)

/-- UNCAL as the store has loaded it: a condition from the end of loading on (R164). -/
def Csto.uncal (c : Csto) : Bool :=
  match c.loaded with
  | some p => p.uncal
  | none => false

/-- The own flags as their owners hold them (R26). -/
def State.flags (s : State) : Byte :=
  flagsByte s.tmon.hot s.tmon.crit s.tmon.tfault s.csto.uncal s.sseq.settling s.sseq.senseFault s.tge.belowFloor
    s.ftb.nosync

/-- The set holds one of HOT, CRIT, TFAULT, UNCAL and SETTLING (R118, R128). -/
def excluded (flags : Byte) : Bool := flags &&& 0x1F != 0

/-- UNCAL in a flags byte. -/
def hasUncal (flags : Byte) : Bool := flags &&& 0x08 != 0

/-! ### Events -/

/-- An event set holding entry `k` when `b`. -/
def entryIf (k : Nat) (b : Bool) : EventSet := if b then 1 <<< k else 0

/-- The entry of SET_DEFAULT. -/
def evSetDefault : EventSet := 1 <<< 5
/-- The entry of ADDR_YIELD. -/
def evAddrYield : EventSet := 1 <<< 13
/-- The entry of DUP_ADDRESS. -/
def evDupAddress : EventSet := 1 <<< 15

/-- REC stands at 96 or more (R148). -/
def Fc.noisy (f : Fc) : Bool := 96 ≤ f.recCount

/-- The link state is DETACHED, latched or not. -/
def LinkState.isDetached : LinkState → Bool
  | .detached | .latched => true
  | _ => false

/-- The thirteen level conditions as their owners hold them, at their entries (THE SIXTEEN EVENTS). -/
def State.conditions (s : State) : EventSet :=
  entryIf 0 s.tmon.tfault ||| entryIf 1 s.tmon.hot ||| entryIf 2 s.tmon.crit ||| entryIf 3 s.sseq.senseFault |||
  entryIf 4 s.csto.uncal ||| entryIf 6 s.tge.belowFloor ||| entryIf 7 s.tge.floored ||| entryIf 8 s.ftb.nosync |||
  entryIf 9 (s.fc.link = .quiet) ||| entryIf 10 s.fc.link.isDetached ||| entryIf 11 s.fc.noisy |||
  entryIf 12 s.fc.busStuck ||| entryIf 14 (s.sid.st = .unaddressed)

/-- The fault line re-judged (R175): driven while a latched entry has its mask entry set. -/
def Evu.judge (e : Evu) : Evu := { e with faultLine := e.latched &&& e.mask != 0 }

/-- The raw set takes the conditions `now`; entries that rise, and the pulses, arise: their latched entries and arisal marks
are set (R173, R174). The fault line follows once, at the end. -/
def Evu.take (e : Evu) (now pulses : EventSet) : Evu :=
  let arisen := (now &&& ~~~e.raw) ||| pulses
  Evu.judge { e with raw := now, latched := e.latched ||| arisen, marks := e.marks ||| arisen }

/-- The event unit takes the owners' conditions as they stand, and the pulses given (R173, R174). -/
def handEvents (pulses : EventSet) (s : State) : State := s.setEvu (s.evu.take s.conditions pulses)

/-- A clear request (R178): a latched entry that was set in the captured set and whose arisal mark is clear is cleared. -/
def Evu.clearRequest (e : Evu) (captured : EventSet) : Evu :=
  Evu.judge { e with latched := e.latched &&& ~~~(captured &&& ~~~e.marks) }

/-- The STATUS_CLEAR capture clears every arisal mark (R177). -/
def Evu.clearMarks (e : Evu) : Evu := { e with marks := 0 }

end Sys2Proof.Machine
end

