-- ==== Sys2Proof/Machine/Estimator.lean ====
section
/-! DEFINITION. The luminance estimator's arithmetic (R18 to R24) and the significant-change test (R29). -/

namespace Sys2Proof.Machine

/-- The thermal factor of a curve at a temperature: the four steps of R19. -/
def thermalFactor (curve : List Nat) (tf : Int) : Nat :=
  let u := (clampInt 0 1280 (tf + 160)).toNat
  let i := min (u / 160) 7
  let r := u - 160 * i
  let lo : Int := (curve.getD i 0 : Nat)
  let hi : Int := (curve.getD (i + 1) 0 : Nat)
  (lo + ((hi - lo) * (r : Int)).tdiv 160).toNat

/-- The ratio q of an accepted count with its thermal factor (R22). -/
def agingRatio (count sRef f : Nat) : Nat := clampNat 16384 34816 (count * 2 ^ 30 / (sRef * f))

/-- One filter step of an aging factor toward the ratio (R22). -/
def agingStep (a q : Nat) : Nat :=
  let d : Int := (q : Int) - (a : Int)
  if d.natAbs < 4 then q else ((a : Int) + d.tdiv 4).toNat

/-- The estimate of a channel (R23). -/
def estimate (lRef f a : Nat) : Nat := min 65535 (lRef * f * a / 2 ^ 30)

/-- The three estimates from the three factors (R23). -/
def estimates (chars : Rgb CharChannel) (f a : Rgb Nat) : Rgb Nat :=
  ⟨estimate chars.r.lRef f.r a.r, estimate chars.g.lRef f.g a.g, estimate chars.b.lRef f.b a.b⟩

/-- f_c and L_c of all three channels computed from a temperature (R18, R20, R24). -/
def Lest.thermal (e : Lest) (chars : Rgb CharChannel) (tf : Int) : Lest :=
  let f := chars.map fun c => thermalFactor c.curve tf
  { e with f := some f, l := some (estimates chars f e.a) }

/-- An accepted sample applied to its channel with the factor it carries (R21, R22), and L_c of that channel (R24). -/
def Lest.sample (e : Lest) (chars : Rgb CharChannel) (c : Channel) (count factor : Nat) : Lest :=
  let ch := chars.get c
  let a' := agingStep (e.a.get c) (agingRatio count ch.sRef factor)
  let a := e.a.set c a'
  match e.f, e.l with
  | some f, some l => { e with a := a, l := some (l.set c (estimate ch.lRef (f.get c) a')) }
  | _, _ => { e with a := a }

/-- The luminance part of the significant-change test for one channel (R29). -/
def lumChanged (l rep : Nat) : Bool := rep ≤ ((l : Int) - (rep : Int)).natAbs * 64

/-- The significant-change test (R29). -/
def Lest.significant (e : Lest) : Bool :=
  match e.l, e.lRep, e.flagsRep with
  | some l, some rep, some flags =>
    lumChanged l.r rep.r || lumChanged l.g rep.g || lumChanged l.b rep.b || e.ownFlags != flags
  | _, _, _ => false

/-- The present triple that a NOTICE payload and a CAPABILITY answer carry (R31); it is computed whenever either can be made. -/
def Lest.triple (e : Lest) : Rgb Nat := e.l.getD (Rgb.all 0)

end Sys2Proof.Machine
end

