-- ==== Sys2Proof/Machine/Target.lean ====
section
/-! DEFINITION. The target and gain engine (R126 to R140, R146) and the driver port (R141 to R143). -/

namespace Sys2Proof.Machine

/-! ### Eligible set and target -/

/-- An entry takes part when its flags hold none of the five excluding flags (R128). -/
def eligible (e : Option Entry) : Option (Rgb Nat) :=
  match e with
  | some x => if excluded x.flags then none else some x.lum
  | none => none

/-- The members of the eligible set, the own entry's first (R128). -/
def Tge.members (t : Tge) : List (Rgb Nat) := (t.own :: t.peers.toList).filterMap eligible

/-- A member is an outlier against a median (R131). -/
def isOutlier (phi median v : Nat) : Bool := v * 256 < median * phi

/-- The median of one channel's members: the own value for an empty set (R129), the smallest of one or two (R130), the lower
middle from three on (R131). -/
def medianOf (own : Nat) (values : List Nat) : Nat :=
  let sorted := values.insertionSort (· ≤ ·)
  let n := sorted.length
  if n = 0 then own else if n ≤ 2 then sorted.getD 0 0 else sorted.getD ((n - 1) / 2) 0

/-- The smallest member that steers the channel: from three members on, outliers are set aside (R129 to R131). -/
def steering (phi own : Nat) (values : List Nat) : Nat :=
  let sorted := values.insertionSort (· ≤ ·)
  let m := medianOf own values
  if sorted.length ≤ 2 then m else (sorted.find? fun v => !isOutlier phi m v).getD m

/-- The target of a channel (R129 to R131). -/
def targetOf (h phi own : Nat) (values : List Nat) : Nat := steering phi own values * h / 256

/-- The own outlier mark of a channel (R133): only from three members on, and never under UNCAL. An eligible own value is a
member, an excluded one is tested against a median formed without it; the test is the same. -/
def ownMark (phi : Nat) (uncal : Bool) (n median own : Nat) : Bool :=
  !uncal && 3 ≤ n && isOutlier phi median own

/-! ### Gains -/

/-- The headroom h (R126 note 1). -/
def Params.headroom (p : Params) : Nat := 256 - p.headroomLoss

/-- g_min. -/
def Params.gMin (p : Params) : Nat := p.gainFloor * 16

/-- The quotient of R134. -/
def gainQuotient (target own : Nat) : Nat := target * 4096 / own

/-- The desired gain of a channel (R134, R135). -/
def desiredGain (p : Params) (uncal mark : Bool) (target own : Nat) : Nat :=
  if uncal then 16 * p.headroom
  else if mark then 4096
  else clampNat p.gMin 4096 (gainQuotient target own)

/-- The channel's quotient was raised to g_min (R134). -/
def flooredGain (p : Params) (uncal mark : Bool) (target own : Nat) : Bool :=
  !uncal && !mark && gainQuotient target own < p.gMin

/-- The ceilinged gain (R136). -/
def ceiledGain (crit : Bool) (g : Nat) : Nat := if crit then min g 2048 else g

/-- One recompute (R127): from the engine's inputs, everything but the applied gains. -/
def Tge.recompute (p : Params) (t : Tge) : Tge :=
  match t.own with
  | none => t
  | some own =>
    let ms := t.members
    let n := ms.length
    let uncal := hasUncal own.flags
    let values (c : Channel) : List Nat := ms.map fun m => m.get c
    let med : Rgb Nat := ⟨medianOf own.lum.r (values .r), medianOf own.lum.g (values .g), medianOf own.lum.b (values .b)⟩
    let tgt : Rgb Nat := ⟨targetOf p.headroom p.floorRatio own.lum.r (values .r),
      targetOf p.headroom p.floorRatio own.lum.g (values .g), targetOf p.headroom p.floorRatio own.lum.b (values .b)⟩
    let marks : Rgb Bool := Rgb.map₂ (ownMark p.floorRatio uncal n) med own.lum
    let des : Rgb Nat := ⟨desiredGain p uncal marks.r tgt.r own.lum.r, desiredGain p uncal marks.g tgt.g own.lum.g,
      desiredGain p uncal marks.b tgt.b own.lum.b⟩
    { t with
      size := n, median := some med, target := some tgt, marks := marks, desired := some des,
      ceiled := some (des.map (ceiledGain t.crit)),
      belowFloor := marks.any id,
      floored := flooredGain p uncal marks.r tgt.r own.lum.r || flooredGain p uncal marks.g tgt.g own.lum.g ||
        flooredGain p uncal marks.b tgt.b own.lum.b }

/-- A notification of the peer table gives the engine the contributions `peers`, and it recomputes where one has changed (R118,
R126, R127). -/
def Tge.notified (p : Params) (peers : Vector (Option Entry) 48) (t : Tge) : Tge :=
  if { t with peers := peers } = t then t else { t with peers := peers }.recompute p

/-- The step of the slew for one channel (R137). -/
def slewStepOf (slew : Nat) (crit : Bool) (goal g : Nat) : Nat := if crit && goal < g then 8 * slew else slew

/-- One slew step of an applied gain toward its ceilinged gain (R137). -/
def slewGain (slew : Nat) (crit : Bool) (goal g : Nat) : Nat :=
  let st := slewStepOf slew crit goal g
  if goal ≤ g then (if g - goal ≤ st then goal else g - st)
  else (if goal - g ≤ st then goal else g + st)

/-- The applied gains after a tick (R137). -/
def Tge.slew (p : Params) (t : Tge) : Tge :=
  match t.ceiled with
  | none => t
  | some goal => { t with applied := Rgb.map₂ (slewGain p.slewStep t.crit) goal t.applied }

/-! ### Driver port -/

/-- A gain set arrives at the port (R141). -/
def Drvp.arrive (d : Drvp) (set : Rgb Nat) : Drvp :=
  match d.sending with
  | none => { d with sending := some set }
  | some _ => { d with pending := some set }

/-- The 13 bits of a gain code, most significant first (R142). -/
def gainBits (g : Nat) : List Bool := (List.range 13).map fun k => g.testBit (12 - k)

/-- The thirty-nine data bits of a transfer (R142). -/
def transferBits (set : Rgb Nat) : List Bool := gainBits set.r ++ gainBits set.g ++ gainBits set.b

/-- A transfer completes with its latch pulse; a pending set starts, or the port goes idle (R142). -/
def Drvp.complete (d : Drvp) : Drvp :=
  match d.sending with
  | none => d
  | some set => { sending := d.pending, pending := none, latched := transferBits set }

/-- DRIVER_TRANSFER_COMPLETE (R142). -/
def execDriverTransferComplete (s : State) : Host.Outcome State Fault Refusal :=
  whenLive s (s.setDrvp s.drvp.complete)

end Sys2Proof.Machine
end

