-- ==== Sys2Proof/Machine/Slots.lean ====
section
/-! DEFINITION. The seam link controller's outbound slots and transmission (R70 to R74), and the early-NOTICE request (R76). -/

namespace Sys2Proof.Machine

/-- The main part on the line is this station's, of kind `k`. -/
def Slc.onLine (l : Slc) (k : Kind) : Bool :=
  match l.tx with
  | some (.main f) => f.body.kind = k
  | _ => false

/-- A main part of this station's is on the line. -/
def Slc.sendingMain (l : Slc) : Bool :=
  match l.tx with
  | some (.main _) => true
  | _ => false

/-- A reply block of this station's is on the line. -/
def Slc.sendingReply (l : Slc) : Bool :=
  match l.tx with
  | some (.main _) => false
  | some _ => true
  | none => false

/-! ### Fills and withdrawals -/

/-- Station identity fills the STAKE slot (R70, R94, R103). -/
def Slc.fillStake (l : Slc) (x : StakeReq) : Slc := { l with stake := l.stake.fill (l.onLine .stake) true x }

/-- The peer table fills the ASK slot (R70, R121). -/
def Slc.fillAsk (l : Slc) (x : AskReq) : Slc := { l with ask := l.ask.fill (l.onLine .ask) false x }

/-- The NOTICE slot becomes pending; a fill that finds it pending merges (R70, R75, R76). -/
def Slc.fillNotice (l : Slc) : Slc := { l with notice := l.notice.fill (l.onLine .notice) false () }

/-- The muster run fills the MUSTER slot (R70, R79). -/
def Slc.fillMuster (l : Slc) (start : Byte) : Slc := { l with muster := l.muster.fill (l.onLine .muster) false start }

/-- Station identity withdraws its STAKE (R73). -/
def Slc.withdrawStake (l : Slc) : Slc := { l with stake := l.stake.withdraw (l.onLine .stake) }

/-- The peer table withdraws its ASK (R73). -/
def Slc.withdrawAsk (l : Slc) : Slc := { l with ask := l.ask.withdraw (l.onLine .ask) }

/-- The NOTICE slot holds a pending frame. -/
def Slc.noticePending (l : Slc) : Bool := l.notice.content.isSome

/-- A NOTICE that is due or asked for: at spacing count 4 the slot is filled, below 4 the request is deferred, and a pending
slot takes it in (R75, R76; log 25). -/
def Slc.wantNotice (l : Slc) : Slc :=
  if l.noticePending then l
  else if l.spacing < 4 then { l with deferred := true }
  else l.fillNotice

/-- An early-NOTICE request (R76): dropped outside RUN. -/
def earlyRequest (st : IdState) (l : Slc) : Slc := if st = .run then l.wantNotice else l

/-! ### Attempts -/

/-- What an own main part's end without completion does to its slot (R72, R73). -/
def Slc.attemptEnd (l : Slc) : Slc :=
  match l.tx with
  | some (.main f) =>
    match f.body.kind with
    | .stake => { l with stake := l.stake.attemptEnd }
    | .ask => { l with ask := l.ask.attemptEnd }
    | .notice => { l with notice := l.notice.attemptEnd }
    | .muster => { l with muster := l.muster.attemptEnd }
    | .fixture => l
  | _ => l

/-- What an own main part's completion does to its slot (R72). -/
def Slc.completeSlot (l : Slc) (k : Kind) : Slc :=
  match k with
  | .stake => { l with stake := l.stake.complete }
  | .ask => { l with ask := l.ask.complete }
  | .notice => { l with notice := l.notice.complete }
  | .muster => { l with muster := l.muster.complete }
  | .fixture => l

/-- The driver is released and nothing more is sent (R61, R62). -/
def Slc.release (l : Slc) (m : OwnMark) : Slc := { l with driver := .released, tx := none, txPos := 0, mark := m }

/-- A transmission ends without completing: the slot of a main part follows R72, the driver is released. -/
def Slc.stop (l : Slc) (m : OwnMark) : Slc := l.attemptEnd.release m

/-- The station drops out of a muster reply (R74, R80). -/
def Slc.musterDone (l : Slc) : Slc := { l with musterReply := if l.musterReply = .notReplying then .notReplying else .done }

/-- A change of identity or link state takes the right to send away (R74): a transmission is cut off, a muster reply dropped. -/
def Slc.cutOff (l : Slc) : Slc := (if l.tx.isSome then l.stop .stopped else l).musterDone

/-- The identity state leaves RUN (R74). -/
def Slc.leaveRun (l : Slc) : Slc :=
  { l.cutOff with reportTimer := none, deferred := false, notice := .empty, muster := .empty, musterRun := false }

/-- The first symbol of `x` is driven; the line is dominant, and the recessive time begins anew (R51). -/
def Slc.start (l : Slc) (x : Sending) : Slc :=
  { l with driver := .driving, tx := some x, txPos := 0, mark := .asSent, recessive := 0 }

/-! ### The estimator's hand-off -/

/-- The contribution of a slot (R118): its triple and flags while it is FRESH. -/
def PeerSlot.contribution : PeerSlot → Option Entry
  | .fresh lum flags _ _ => some ⟨lum, flags⟩
  | _ => none

/-- Every slot's contribution. -/
def Ptab.contributions (t : Ptab) : Vector (Option Entry) 48 := mapVec PeerSlot.contribution t.slots

/-- The estimator's own-flags set takes the owners' values (R26). -/
def State.takeFlags (s : State) : State := s.setLest { s.lest with ownFlags := s.flags }

/-- The engine with its inputs as their owners hold them: own entry, CRIT, peer contributions (R126). -/
def State.inputs (s : State) (l : Rgb Nat) : Tge :=
  { s.tge with own := some ⟨l, s.lest.ownFlags⟩, crit := s.tmon.crit, peers := s.ptab.contributions }

/-- The engine after the hand-offs: a recompute where an input has changed, and nothing otherwise (R127). -/
def State.engine (s : State) (p : Params) (l : Rgb Nat) : Tge :=
  if s.inputs l = s.tge then s.tge else (s.inputs l).recompute p

/-- BELOWFLOOR returns to the engine in the own-flags set and changes nothing further there (R27, R133). -/
def State.returnFlags (s : State) (l : Rgb Nat) : State :=
  let s' := s.takeFlags
  s'.setTge { s'.tge with own := some ⟨l, s'.lest.ownFlags⟩ }

/-- The significant-change test, where the own entry has changed from `before`, and the early request it hands (R30). -/
def State.evaluate (s : State) (before : Option Entry) : State :=
  if s.tge.own != before && s.lest.significant then s.setSlc (earlyRequest s.sid.st s.slc) else s

/-- What an event that changed flags, estimates, CRIT or contributions hands on: the own-flags set, from the end of loading
on the engine and its BELOWFLOOR, one evaluation of the significant-change test (R24, R26, R27, R30, R126; log 13), and last
the event unit (R173). -/
def settle (s : State) : State :=
  match s.csto.loaded, s.lest.l with
  | some p, some l =>
    let s1 := s.takeFlags
    let s2 := (s1.setTge (s1.engine p l)).returnFlags l
    handEvents 0 (s2.evaluate s.tge.own)
  | _, _ => handEvents 0 s.takeFlags

end Sys2Proof.Machine
end

