-- ==== Sys2Proof/Machine/PeerTable.lean ====
section
/-! DEFINITION. The peer table (R108 to R125): reports, signs of life, aging, and the ASK candidate. -/

namespace Sys2Proof.Machine

/-! ### One slot -/

/-- A report acts on a slot (R110). -/
def PeerSlot.report (lum : Rgb Nat) (flags : Byte) : PeerSlot → PeerSlot
  | .self => .self
  | _ => .fresh lum flags 0 0

/-- A sign of life acts on a slot (R111). -/
def PeerSlot.life : PeerSlot → PeerSlot
  | .empty => .heard 0 0
  | .heard _ tries => .heard 0 tries
  | .fresh lum flags d _ => .fresh lum flags d 0
  | .stale lum flags d _ => .stale lum flags d 0
  | .self => .self

/-- A tick ages a slot; each age stops at the removal point (R112). -/
def PeerSlot.age (removal : Nat) : PeerSlot → PeerSlot
  | .heard h tries => .heard (min (h + 1) removal) tries
  | .fresh lum flags d h => .fresh lum flags (min (d + 1) removal) (min (h + 1) removal)
  | .stale lum flags d h => .stale lum flags (min (d + 1) removal) (min (h + 1) removal)
  | x => x

/-- A FRESH slot whose data age has reached the staleness point goes STALE (R113). -/
def PeerSlot.goStale (point : Nat) : PeerSlot → PeerSlot
  | .fresh lum flags d h => if point ≤ d then .stale lum flags d h else .fresh lum flags d h
  | x => x

/-- A HEARD or STALE slot whose heard age has reached the removal point goes EMPTY (R113). -/
def PeerSlot.remove (point : Nat) : PeerSlot → PeerSlot
  | .heard h tries => if point ≤ h then .empty else .heard h tries
  | .stale lum flags d h => if point ≤ h then .empty else .stale lum flags d h
  | x => x

/-- An uncontested STAKE empties a slot other than SELF (R115). -/
def PeerSlot.free : PeerSlot → PeerSlot
  | .self => .self
  | _ => .empty

/-- An ask that was not answered (R122). -/
def PeerSlot.missed : PeerSlot → PeerSlot
  | .heard h tries => .heard h (min 3 (tries + 1))
  | x => x

/-- The slot is HEARD with ask tries below 3 (R120). -/
def PeerSlot.askable : PeerSlot → Bool
  | .heard _ tries => tries < 3
  | _ => false

/-- The slot is HEARD. -/
def PeerSlot.isHeard : PeerSlot → Bool
  | .heard _ _ => true
  | _ => false

/-! ### The table -/

/-- The staleness point (R109). -/
def Params.stalePoint (p : Params) : Nat := p.staleLimit * p.period

/-- The removal point (R109). -/
def Params.removalPoint (p : Params) : Nat := p.goneLimit * p.period

/-- One slot replaced by a function of itself. -/
def Ptab.update (t : Ptab) (a : Addr) (f : PeerSlot → PeerSlot) : Ptab :=
  { t with slots := t.slots.set a.val (f (t.slots.get a)) a.isLt }

/-- Every slot replaced by a function of itself. -/
def Ptab.updateAll (t : Ptab) (f : PeerSlot → PeerSlot) : Ptab := { t with slots := mapVec f t.slots }

/-- All addresses in ascending order. -/
def allAddrs : List Addr := List.finRange 48

/-- The ASK candidate: the lowest address whose slot is HEARD with ask tries below 3 (R120). -/
def Ptab.candidate (t : Ptab) : Option Addr := allAddrs.find? fun a => (t.slots.get a).askable

/-- The three conditions under which the ASK slot is kept filled (R120). -/
def Ptab.mayAsk (t : Ptab) : Bool := t.heldId = .run && t.heldLink = .active && !t.awaited

/-- The ASK for an address (R82). -/
def askFor (a : Addr) : AskReq := { target := a, selector := 0x00 }

/-- The ASK slot is brought into line with the candidate: the table of R121. -/
def askUpdate (s : State) : State :=
  let t := s.ptab
  if t.mayAsk then
    if t.candidate = t.askTarget then s
    else
      let l := if t.askTarget.isSome then s.slc.withdrawAsk else s.slc
      let l := match t.candidate with
        | some c => l.fillAsk (askFor c)
        | none => l
      (s.setSlc l).setPtab { t with askTarget := t.candidate }
  else if !t.awaited && t.askTarget.isSome then
    (s.setSlc s.slc.withdrawAsk).setPtab { t with askTarget := none }
  else s

/-- One slot acted on, and the ASK slot renewed (R110, R111). -/
def actOnSlot (a : Addr) (f : PeerSlot → PeerSlot) (s : State) : State := askUpdate (s.setPtab (s.ptab.update a f))

/-- A report for an address (R110). -/
def peerReport (a : Addr) (lum : Rgb Nat) (flags : Byte) (s : State) : State := actOnSlot a (PeerSlot.report lum flags) s

/-- A sign of life of the address that a byte names; other bytes are none (R111). -/
def signOfLife (x : Byte) (s : State) : State :=
  match addrOf? x with
  | some a => actOnSlot a PeerSlot.life s
  | none => s

/-- A tick ages every slot (R112). -/
def agePeers (p : Params) (s : State) : State := s.setPtab (s.ptab.updateAll (PeerSlot.age p.removalPoint))

/-- The FRESH slots whose data age has reached the staleness point go STALE (R113). -/
def staleSlots (p : Params) (s : State) : State := s.setPtab (s.ptab.updateAll (PeerSlot.goStale p.stalePoint))

/-- What the seam link controller hands the peer table for a completed own ASK (R82). -/
inductive AskOutcome where
  | answered (lum : Rgb Nat) (flags : Byte)
  | bad
  | silent
  deriving DecidableEq, Repr

/-- The outcome is judged against the target's slot (R122). -/
def PeerSlot.outcome (o : AskOutcome) (sl : PeerSlot) : PeerSlot :=
  if sl.isHeard then
    match o with
    | .answered lum flags => sl.report lum flags
    | .bad | .silent => sl.missed
  else sl

/-- The outcome of the own ASK arrives (R122): outcome awaited clears, the slot is judged, the candidate worked out afresh. -/
def askOutcome (a : Addr) (o : AskOutcome) (s : State) : State :=
  actOnSlot a (PeerSlot.outcome o) (s.setPtab { s.ptab with awaited := false })

/-- The own ASK completed (R121): outcome awaited is set, and ASK target becomes none or the address of the held fill. -/
def askCompleted (s : State) : State :=
  s.setPtab { s.ptab with awaited := true, askTarget := s.slc.ask.content.map AskReq.target }

end Sys2Proof.Machine
end

