-- ==== Sys2Proof/Machine/Identity.lean ====
section
/-! DEFINITION. Station identity (R90 to R107): the candidate choice, taking and yielding an address, contests, duplicates. -/

namespace Sys2Proof.Machine

/-- The seed address: the low 16 bits of the UID modulo 48 (R90). -/
def seedOf (uid : BitVec 64) : Addr := ⟨(uid.toNat % 65536) % 48, Nat.mod_lt _ (by decide)⟩

/-- The address `k` places after `a`, modulo 48 (R93). -/
def addrAfter (a : Addr) (k : Nat) : Addr := ⟨(a.val + k) % 48, Nat.mod_lt _ (by decide)⟩

/-- The addresses a choice examines, in order (R93): all 48 from the start, or the 47 that leave out the one before it. -/
def searchOrder (start : Addr) (all : Bool) : List Addr :=
  (List.range (if all then 48 else 47)).map (addrAfter start)

/-- The first slot found EMPTY (R93). -/
def Ptab.firstFree (t : Ptab) (start : Addr) (all : Bool) : Option Addr :=
  (searchOrder start all).find? fun a => t.slots.get a = .empty

/-- The report period P of the loaded copy. -/
def State.period (s : State) : Nat :=
  match s.csto.loaded with
  | some p => p.period
  | none => 0

/-- The identity state changes, and is handed to the seam link controller, the peer table and the event unit (R74, R106). -/
def changeIdentity (new : IdState) (s : State) : State :=
  let l := if s.sid.st = .run && new != .run then s.slc.leaveRun else s.slc
  let s1 := ((s.setSid { s.sid with st := new }).setSlc l).setPtab { s.ptab with heldId := new }
  handEvents 0 (askUpdate s1)

/-- The STAKE slot is withdrawn. -/
def withdrawStake (s : State) : State := s.setSlc s.slc.withdrawStake

/-- Entry to UNADDRESSED (R105). -/
def enterUnaddressed (s : State) : State :=
  changeIdentity .unaddressed (withdrawStake (s.setSid { s.sid with candidate := none, search := none }))

/-- A candidate choice (R93, R94). Outside ACTIVE it waits, with its start kept and the STAKE withdrawn. -/
def chooseCandidate (start : Addr) (all : Bool) (s : State) : State :=
  if s.fc.link = .active then
    match s.ptab.firstFree start all with
    | some c =>
      (s.setSid { s.sid with candidate := some c, search := none }).setSlc
        (s.slc.fillStake { target := c, mode := .fresh, uid := s.sid.uid })
    | none => enterUnaddressed s
  else withdrawStake (s.setSid { s.sid with candidate := none, search := some (start, all) })

/-- Entry to CLAIMING with a choice from the seed over all addresses (R92, R105). -/
def claimFromSeed (s : State) : State :=
  let s1 := s.setSid { s.sid with attempts := 0, candidate := none, listen := none, emptied := false }
  chooseCandidate (seedOf s.sid.uid) true (changeIdentity .claiming s1)

/-- The candidate is given up (R96). -/
def giveUp (c : Addr) (s : State) : State :=
  let s1 := s.setSid { s.sid with attempts := s.sid.attempts + 1, candidate := none }
  if s1.sid.attempts = 48 then enterUnaddressed s1 else chooseCandidate (addrAfter c 1) false s1

/-- The candidate becomes the own address (R95, R102, R116): slot SELF, RUN, report timer (R75) and muster run (R79) started. -/
def takeAddress (c : Addr) (s : State) : State :=
  let s1 := s.setSid { s.sid with own := some c, candidate := none, search := none, attempts := 0 }
  let s2 := s1.setPtab (s1.ptab.update c fun _ => .self)
  let l := { s2.slc.withdrawStake with reportTimer := some (c.val * 7 % s.period), musterRun := true }
  changeIdentity .run (s2.setSlc (l.fillMuster 0))

/-- The own address is yielded: the five steps of R101. While the window decision is yielding the choice waits for EOF
(R99). -/
def yieldAddress (a : Addr) (s : State) : State :=
  let s1 := s.setSid { s.sid with own := none, reassert := false, attempts := 0, candidate := none }
  let s2 := s1.setPtab (s1.ptab.update a fun _ => .empty)
  let s3 := changeIdentity .claiming (withdrawStake (handEvents evAddrYield s2))
  if s3.sid.decision = .yielding then s3.setSid { s3.sid with search := some (addrAfter a 1, false) }
  else chooseCandidate (addrAfter a 1) false s3

/-- Station identity takes the hand-off of a slot that has turned EMPTY by aging or after an uncontested STAKE: in UNADDRESSED
that starts a new claim (R105, R119). -/
def slotEmptied (s : State) : State := if s.sid.st = .unaddressed then claimFromSeed s else s

/-- A hand-off that is on its way reaches station identity (R114; log 37). -/
def takeHandOff (s : State) : State := if s.sid.emptied then slotEmptied s else s

/-- Slots have turned EMPTY by aging, and are handed over (R119). In UNADDRESSED the hand-off can be on its way when the event
ends, where `waits` tells so and none is on its way already (R114; log 37). -/
def handOverEmptied (waits : Bool) (s : State) : State :=
  if s.sid.st = .unaddressed && !s.sid.emptied && waits then s.setSid { s.sid with emptied := true } else slotEmptied s

/-- The duplicate test at the EOB of another station's main part (R103). -/
def duplicateTest (src : Byte) (s : State) : State :=
  match s.sid.own with
  | some a =>
    if s.sid.st = .run && src = addrByte a && !s.sid.reassert then
      let s1 := s.setSid { s.sid with reassert := true }
      handEvents evDupAddress (s1.setSlc (s1.slc.fillStake { target := a, mode := .held, uid := s1.sid.uid }))
    else s
  | none => s

/-- The choice that has waited for ACTIVE, or for the EOF of the frame that was yielded to (R93, R99). -/
def resumeChoice (s : State) : State :=
  match s.sid.search with
  | some (start, all) =>
    if s.sid.st = .claiming && s.sid.candidate.isNone && s.fc.link = .active then chooseCandidate start all s else s
  | none => s

/-- LISTEN_END (R92): the listen timer has reached 2·P. -/
def listenEnd (s : State) : State :=
  match s.sid.listen with
  | some n => if s.sid.st = .listen && 2 * s.period ≤ n then claimFromSeed s else s
  | none => s

/-- LISTEN_END. -/
def execListenEnd (s : State) : Host.Outcome State Fault Refusal := whenLive s (listenEnd s)

/-- The byte that carries the own address, or 63 while there is none (R90, R181). -/
def State.ownByte (s : State) : Byte :=
  match s.sid.own with
  | some a => addrByte a
  | none => 63

end Sys2Proof.Machine
end

