-- ==== Sys2Proof/Machine/Confinement.lean ====
section
/-! DEFINITION. Link fault confinement (R147 to R158): the error counts, the link states, silence, detaches, the stuck line. -/

namespace Sys2Proof.Machine

/-! ### Counts -/

/-- A valid main part, own or another's, at fault confinement (R147, R148, R150). -/
def Fc.validMain (f : Fc) (own : Bool) : Fc :=
  let tec := if own || f.link = .quiet then f.tec - 1 else f.tec
  let link := if f.link = .quiet && tec < 96 then LinkState.active else f.link
  { f with recCount := f.recCount - 1, tec := tec, link := link }

/-- A bit error of this station's (R147, R149). -/
def Fc.bitError (f : Fc) : Fc :=
  let tec := min 255 (f.tec + 8)
  { f with tec := tec, link := if f.link = .active && 128 ≤ tec then .quiet else f.link }

/-- A malformed frame or a reply block in error (R148). -/
def Fc.receiveError (f : Fc) : Fc := { f with recCount := min 255 (f.recCount + 1) }

/-- An SOF that starts a frame restarts the silence timer (R52, R153). -/
def Fc.sof (f : Fc) (t : Nat) : Fc := { f with silenceTimer := some (afterMs t 500) }

/-! ### Hand-off -/

/-- At the end of an event that found the link state `old`: a change is handed to the transmit choice (R74), the peer table
(R120), station identity (R93) and the event unit (R151). -/
def linkHandOff (old : LinkState) (s : State) : State :=
  if s.fc.link = old then handEvents 0 s
  else
    let l := if old = .active then s.slc.cutOff else s.slc
    let s1 := askUpdate ((s.setSlc l).setPtab { s.ptab with heldLink := s.fc.link })
    let s2 := if s1.sid.decision = .yielding then s1 else resumeChoice s1
    handEvents 0 s2

/-- A change of fault confinement's own state, with its hand-off. -/
def confine (f : Fc → Fc) (s : State) : State := linkHandOff s.fc.link (s.setFc (f s.fc))

/-! ### Silence -/

/-- The silence expiry (R153). -/
def Fc.silence (f : Fc) : Fc :=
  match f.silenceTimer with
  | none => f
  | some e =>
    { f with tec := 0, recCount := 0, silenceTimer := some (afterMs e 500),
             link := if f.link = .quiet then .active else f.link }

/-- SILENCE_EXPIRY (R153). -/
def execSilenceExpiry (s : State) : Host.Outcome State Fault Refusal := whenLive s (confine Fc.silence s)

/-! ### Stuck own driver -/

/-- 60 s in µs. -/
def historySpanUs : Nat := 60000000

/-- A detach at moment `t` judged against the history (R154, R156). -/
def Fc.detach (f : Fc) (t onTime : Nat) : Fc :=
  let f' := { f with cut := true, driverOn := some onTime, historyTimer := some (t + historySpanUs) }
  match f.history with
  | [a, b] =>
    if t - a ≤ historySpanUs then { f' with link := .latched, recoveryTimer := none }
    else { f' with link := .detached, recoveryTimer := some (afterMs t 1000), history := [b, t] }
  | h => { f' with link := .detached, recoveryTimer := some (afterMs t 1000), history := h ++ [t] }

/-- The check of R154: the driver is connected and has conducted for more than 4 bit times. -/
def Fc.detachCheck (f : Fc) (t onTime : Nat) : Fc :=
  if !f.cut && fourBitTimesUs < onTime then f.detach t onTime else f

/-- DETACH (R154, R156). -/
def execDetach (t onTime : Nat) (s : State) : Host.Outcome State Fault Refusal :=
  whenLive s (confine (fun f => f.detachCheck t onTime) s)

/-- The recovery of R155. A stage that still conducts has done so through the cut, for more than 4 bit times, and detaches
again in the same event (log 15). -/
def Fc.recover (f : Fc) (conducting : Bool) : Fc :=
  match f.link, f.recoveryTimer with
  | .detached, some e =>
    let f' := { f with cut := false, tec := 96, link := .active, recoveryTimer := none, driverOn := none }
    if conducting then f'.detachCheck e ((f.driverOn.getD 0) + 1000000) else f'
  | _, _ => f

/-- DETACH_RECOVERY (R155). -/
def execDetachRecovery (conducting : Bool) (s : State) : Host.Outcome State Fault Refusal :=
  whenLive s (confine (fun f => f.recover conducting) s)

/-- The history clear timer reaches 60 s after the last detach (R156). -/
def Fc.clearHistory (f : Fc) : Fc :=
  match f.historyTimer with
  | none => f
  | some _ => { f with history := [], historyTimer := none }

/-- DETACH_HISTORY_CLEAR (R156). -/
def execDetachHistoryClear (s : State) : Host.Outcome State Fault Refusal := whenLive s (s.setFc s.fc.clearHistory)

end Sys2Proof.Machine
end

