-- ==== Sys2Proof/Machine/Timebase.lean ====
section
/-! DEFINITION. The frame timebase (R1 to R5), what a tick does at the five blocks that receive it (R4), and the rows for the
limits that ticks reach (log 3). -/

namespace Sys2Proof.Machine

/-! ### A tick at each block -/

/-- The interval timer's limit (R43). -/
def Params.intervalLimit (p : Params) : Nat := p.senseInterval * 256

/-- The settle timeout's limit (R45). -/
def Params.settleLimitTicks (p : Params) : Nat := 4 * p.senseInterval * 256

/-- A tick at the sense sequencer (R43, R45): a running count rises by 1, up to its limit (log 29). -/
def Sseq.tick (p : Params) (q : Sseq) : Sseq :=
  { q with
    interval := q.interval.map fun n => min (n + 1) p.intervalLimit
    settleCount := if q.settling then q.settleCount.map fun n => min (n + 1) p.settleLimitTicks else q.settleCount }

/-- A tick at the seam link controller (R75, R76). -/
def Slc.tick (st : IdState) (l : Slc) : Slc :=
  { l with
    reportTimer := if st = .run then l.reportTimer.map fun n => n - 1 else l.reportTimer
    spacing := min 4 (l.spacing + 1) }

/-- A tick at station identity (R92): in LISTEN the listen timer rises by 1, up to 2·P (log 29). -/
def Sid.tick (period : Nat) (d : Sid) : Sid :=
  { d with listen := if d.st = .listen then d.listen.map fun n => min (n + 1) (2 * period) else d.listen }

/-- A tick at the sense sequencer, before loading ends none is counted (R34). -/
def tickSseq (s : State) : State :=
  match s.csto.loaded with
  | some p => s.setSseq (s.sseq.tick p)
  | none => s

/-- A tick at the engine: the slew, and the changed set handed to the driver port (R137, R140); none before loading ends. A
notification that the table makes because of this tick comes before the slew, where `staleFirst` tells so, and with the rest of
the event's changes after it otherwise (R139; log 33). -/
def tickEngine (staleFirst : Bool) (s : State) : State :=
  match s.csto.loaded with
  | some p =>
    let e := s.tge.notified p s.ptab.contributions
    let t := (if e != s.tge && staleFirst then e else s.tge).slew p
    (s.setTge t).setDrvp (if t.applied = s.tge.applied then s.drvp else s.drvp.arrive t.applied)
  | none => s

/-- The HEARD and STALE slots whose heard age has reached the removal point go EMPTY; the ASK slot is renewed and station
identity told (R113, R119, R121). A hand-off that was on its way is taken too. -/
def removeSlots (waits : Bool) (p : Params) (s : State) : State :=
  let t := s.ptab.updateAll (PeerSlot.remove p.removalPoint)
  if t.slots = s.ptab.slots then takeHandOff s else handOverEmptied waits (askUpdate (s.setPtab t))

/-- A tick at the peer table: every slot aged, and R113's tests on the aged values in the same event (R112); before loading ends
every slot is EMPTY and nothing changes. -/
def tickPeers (waits : Bool) (s : State) : State :=
  match s.csto.loaded with
  | some p => staleSlots p (removeSlots waits p (agePeers p s))
  | none => s

/-- A tick goes to the five blocks (R4), in the orders given: `staleFirst` at the engine (R139), `waits` on the way to station
identity (R114). -/
def tickIn (staleFirst waits : Bool) (s : State) : State :=
  let s1 := tickSseq (tickEngine staleFirst (tickPeers waits s))
  (s1.setSlc (s1.slc.tick s1.sid.st)).setSid (s1.sid.tick s1.period)

/-- Once loading has ended a tick has used one place of the free values. -/
def countTick (s : State) : State := if s.csto.loaded.isSome then s.setFreeReads (s.freeReads + 1) else s

/-- A tick. Its two orders are free values: the spec allows either of each (R114, R139; logs 33, 37). -/
def tick (s : State) : State :=
  countTick (tickIn (Config.staleFirst s.freeReads) (Config.handOffWaits s.freeReads) s)

/-! ### FSYNC and the sync-loss timer -/

/-- The edge is accepted (R1): at least 4 ms after the last accepted edge, or the first since reset. -/
def Ftb.accepts (f : Ftb) (t : Nat) : Bool :=
  match f.lastEdge with
  | none => true
  | some e => 4000 ≤ t - e

/-- A rising FSYNC edge (R1, R3): an accepted one is a tick, clears NOSYNC and restarts the timer; a glitch is ignored. -/
def fsyncEdge (t : Nat) (s : State) : State :=
  if s.ftb.accepts t then
    settle (tick (s.setFtb { lastEdge := some t, syncTimer := some (afterMs t 40), nosync := false }))
  else s

/-- FSYNC_EDGE. -/
def execFsyncEdge (t : Nat) (s : State) : Host.Outcome State Fault Refusal := whenLive s (fsyncEdge t s)

/-- An expiry of the sync-loss timer (R2): a substitute tick, NOSYNC raised, the next expiry 20 ms later. -/
def substituteTick (s : State) : State :=
  match s.ftb.syncTimer with
  | none => s
  | some e => settle (tick (s.setFtb { s.ftb with syncTimer := some (afterMs e 20), nosync := true }))

/-- SUBSTITUTE_TICK. -/
def execSubstituteTick (s : State) : Host.Outcome State Fault Refusal := whenLive s (substituteTick s)

/-! ### Limits reached -/

/-- REPORT_TIMER_DUE (R75): in RUN with the report timer at 0 the regular NOTICE is due. -/
def execReportTimerDue (s : State) : Host.Outcome State Fault Refusal :=
  whenLive s (if s.sid.st = .run && s.slc.reportTimer = some 0 then s.setSlc s.slc.wantNotice else s)

/-- SPACING_COUNT_FULL (R76): at count 4 a deferred early request fills the NOTICE slot and clears. -/
def execSpacingCountFull (s : State) : Host.Outcome State Fault Refusal :=
  whenLive s
    (if s.slc.deferred && 4 ≤ s.slc.spacing then s.setSlc { s.slc.fillNotice with deferred := false } else s)

/-- The FRESH slots that stand at the staleness point go STALE, and the engine is told once (R113, R118). A tick has tested the
slots in its own event (log 3). -/
def slotStale (s : State) : State :=
  match s.csto.loaded with
  | some p => settle (staleSlots p s)
  | none => s

/-- SLOT_STALE. -/
def execSlotStale (s : State) : Host.Outcome State Fault Refusal := whenLive s (slotStale s)

/-- The HEARD and STALE slots that stand at the removal point go EMPTY (R113), and station identity takes the hand-off, one that
was on its way too (R119; log 37). A tick has tested the slots in its own event (log 3). -/
def slotRemoval (s : State) : State :=
  match s.csto.loaded with
  | some p => removeSlots false p s
  | none => s

/-- SLOT_REMOVAL. -/
def execSlotRemoval (s : State) : Host.Outcome State Fault Refusal := whenLive s (slotRemoval s)

end Sys2Proof.Machine
end

