-- ==== Sys2Proof/Machine/Sensors.lean ====
section
/-! DEFINITION. The local sensor bus arbiter (R14 to R17), the temperature monitor (R6 to R13) and the sense sequencer
(R34 to R48). -/

namespace Sys2Proof.Machine

/-! ### Arbiter -/

/-- TMON's request state (R6), read from the arbiter. -/
inductive TmonRequest where
  | none | waiting | inFlight | inFlightAndWaiting
  deriving DecidableEq, Repr

/-- TMON's request state (R6). -/
def tmonRequest (b : Lsb) : TmonRequest :=
  if b.inFlight = some .temperature then
    if b.tmonWaiting then .inFlightAndWaiting else .inFlight
  else if b.tmonWaiting then .waiting else .none

/-- A temperature request (R14): it starts on an idle bus, and otherwise waits or merges into the waiting one (R6). -/
def Lsb.requestTemperature (b : Lsb) : Lsb :=
  match b.inFlight with
  | none => { b with inFlight := some .temperature }
  | some _ => { b with tmonWaiting := true }

/-- A count request (R14). -/
def Lsb.requestCount (b : Lsb) : Lsb :=
  match b.inFlight with
  | none => { b with inFlight := some .count }
  | some _ => { b with sseqWaiting := true }

/-- The end of the operation in flight (R15): the waiting count operation starts first, else the waiting temperature read. -/
def Lsb.next (b : Lsb) : Lsb :=
  if b.sseqWaiting then { b with inFlight := some .count, sseqWaiting := false }
  else if b.tmonWaiting then { b with inFlight := some .temperature, tmonWaiting := false }
  else { b with inFlight := none }

/-- The sequencer's waiting request is withdrawn (R17). -/
def Lsb.withdrawCount (b : Lsb) : Lsb := { b with sseqWaiting := false }

/-- The sequencer passes from ARMED to WAIT when its operation starts (R36). -/
def Sseq.countStarts (q : Sseq) : Sseq := if q.st = .armed then { q with st := .wait } else q

/-- The operation in flight has ended and its outcome is taken: the arbiter chooses the next, and a count that starts is
told to the sequencer (R15, R36). -/
def busNext (s : State) : State :=
  let s1 := s.setLsb s.lsb.next
  if s.lsb.sseqWaiting then s1.setSseq s1.sseq.countStarts else s1

/-- POLL_TIMER_EXPIRY (R6): the timer restarts for 100 ms and a temperature read is asked for. -/
def execPollTimerExpiry (s : State) : Host.Outcome State Fault Refusal :=
  whenLive s
    (match s.tmon.pollTimer with
     | none => s
     | some e => (s.setTmon { s.tmon with pollTimer := some (afterMs e 100) }).setLsb s.lsb.requestTemperature)

/-! ### Temperature monitor -/

/-- A reading is a valid sample when it lies in −640..2000 (R7). -/
def validSample? : Option Int → Option Int
  | some x => if -640 ≤ x ∧ x ≤ 2000 then some x else none
  | none => none

/-- The filter (R8). -/
def filterStep (tf x : Int) : Int :=
  let d := x - tf
  if d.natAbs < 8 then x else tf + d.tdiv 8

/-- A valid sample (R7, R8, R10). -/
def Tmon.valid (m : Tmon) (x : Int) : Tmon :=
  if m.tfault then
    if 4 ≤ m.validRun then { m with tfault := false, tf := x, validRun := 0 }
    else { m with validRun := m.validRun + 1 }
  else { m with tf := filterStep m.tf x, failRun := 0 }

/-- A failure (R7, R9). -/
def Tmon.failure (m : Tmon) : Tmon :=
  if m.tfault then { m with validRun := 0 }
  else if 9 ≤ m.failRun then { m with tfault := true, failRun := 0, validRun := 0 }
  else { m with failRun := m.failRun + 1 }

/-- HOT and CRIT tested together against the loaded thresholds (R11). -/
def Tmon.test (m : Tmon) (p : Params) : Tmon :=
  { m with
    hot := if 16 * (p.tHot : Int) ≤ m.tf then true else if m.tf < 16 * ((p.tHot : Int) - 3) then false else m.hot
    crit := if 16 * (p.tCrit : Int) ≤ m.tf then true else if m.tf < 16 * ((p.tCrit : Int) - 5) then false else m.crit }

/-- TMON applies an outcome; the thresholds are tested where T_f takes a new value with TFAULT clear, and at each clearing of
TFAULT, once they are loaded (R8, R10, R11). -/
def Tmon.complete (m : Tmon) (loaded : Option Params) (outcome : Option Int) : Tmon :=
  match validSample? outcome with
  | none => m.failure
  | some x =>
    let m' := m.valid x
    match loaded with
    | some p => if !m'.tfault && (m.tfault || m'.tf != m.tf) then m'.test p else m'
    | none => m'

/-- The sequencer takes T_f and TFAULT; the settle timeout count starts at the first clearing of TFAULT after loading ends
(R45, R46). -/
def Sseq.takeTemperature (q : Sseq) (loaded : Option Params) (m : Tmon) : Sseq :=
  let starts := q.heldTfault && !m.tfault && q.settling && q.settleCount.isNone && loaded.isSome
  { q with heldTf := m.tf, heldTfault := m.tfault, settleCount := if starts then some 0 else q.settleCount }

/-- TMON's results reach the estimator and the sequencer as one event (R12, R20, R24, R46). -/
def handTemperature (tfOld : Int) (tfaultOld : Bool) (s : State) : State :=
  let s1 := s.setSseq (s.sseq.takeTemperature s.csto.loaded s.tmon)
  match s1.csto.loaded with
  | some p => if s1.tmon.tf = tfOld && s1.tmon.tfault = tfaultOld then s1 else s1.setLest (s1.lest.thermal p.chars s1.tmon.tf)
  | none => s1

/-- A temperature read ends (R7 to R12, R15). -/
def temperatureRead (outcome : Option Int) (s : State) : State :=
  if s.lsb.inFlight = some .temperature then
    let s1 := s.setTmon (s.tmon.complete s.csto.loaded outcome)
    settle (busNext (handTemperature s.tmon.tf s.tmon.tfault s1))
  else s

/-- TEMPERATURE_READ_COMPLETION. -/
def execTemperatureReadCompletion (outcome : Option Int) (s : State) : Host.Outcome State Fault Refusal :=
  whenLive s (temperatureRead outcome s)

/-! ### Sense sequencer -/

/-- Settling ends (R44): SETTLING clears, IDLE, the interval timer starts at 0, the settle timeout count stops. -/
def Sseq.settlingEnds (q : Sseq) : Sseq :=
  { q with settling := false, st := .idle, interval := some 0, settleCount := none }

/-- The round is abandoned (R39, R45): SENSEFAULT, all failure counts 0, channel R, IDLE, the interval timer from 0; if
SETTLING is set, settling ends. -/
def Sseq.abandon (q : Sseq) : Sseq :=
  let q' := { q with senseFault := true, fails := Rgb.all 0, chan := .r, st := .idle, interval := some 0 }
  if q.settling then q'.settlingEnds else q'

/-- A failure of the current channel (R39). -/
def Sseq.failed (q : Sseq) : Sseq :=
  let n := q.fails.get q.chan + 1
  if 3 ≤ n then q.abandon else { q with fails := q.fails.set q.chan n, st := .due }

/-- The sense drive turns off. -/
def Sseq.dark (q : Sseq) : Sseq := { q with drive := none }

/-- The round is complete (R42). -/
def Sseq.roundComplete (q : Sseq) (limit : Nat) : Sseq :=
  let q' := { q with chan := .r, fails := Rgb.all 0, senseFault := false }
  if q.settling then
    let q'' := { q' with settleRounds := q.settleRounds + 1 }
    if limit ≤ q''.settleRounds then q''.settlingEnds else { q'' with st := .due }
  else { q' with st := .idle, interval := some 0 }

/-- After an accepted count the failure count is 0 and the next channel is due, or the round is complete (R38, R42). -/
def Sseq.accepted (q : Sseq) (limit : Nat) : Sseq :=
  let q' := { q with fails := q.fails.set q.chan 0 }
  match q.chan with
  | .r => { q' with chan := .g, st := .due }
  | .g => { q' with chan := .b, st := .due }
  | .b => q'.roundComplete limit

/-- SWIN rises (R35, R36). -/
def windowOpen (s : State) : State :=
  let s1 := s.setPins { s.pins with swin := true }
  if s.sseq.st = .due && !s.sseq.heldTfault && !s.sseq.late then
    let q := { s.sseq with drive := some s.sseq.chan, st := if s.lsb.inFlight.isNone then .wait else .armed }
    (s1.setLsb s.lsb.requestCount).setSseq q
  else s1

/-- SENSE_WINDOW_OPEN. -/
def execSenseWindowOpen (s : State) : Host.Outcome State Fault Refusal := whenLive s (windowOpen s)

/-- SWIN falls (R40). -/
def windowClose (s : State) : State :=
  let s1 := s.setPins { s.pins with swin := false }
  match s.sseq.st with
  | .idle | .due => s1
  | .armed => settle ((s1.setLsb s.lsb.withdrawCount).setSseq s.sseq.dark.failed)
  | .wait => settle (s1.setSseq { s.sseq.dark.failed with late := true })

/-- SENSE_WINDOW_CLOSE. -/
def execSenseWindowClose (s : State) : Host.Outcome State Fault Refusal := whenLive s (windowClose s)

/-- A count that can be accepted: 1..65534 (R37). -/
def goodCount? : Option (BitVec 16) → Option Nat
  | some x => if x = 0 ∨ x = 65535 then none else some x.toNat
  | none => none

/-- The outcome of the count operation at the sequencer in WAIT (R37, R38): discarded under TFAULT, accepted, or invalid. -/
def classifyCount (p : Params) (outcome : Option (BitVec 16)) (s : State) : State :=
  let q := s.sseq.dark
  if q.heldTfault then s.setSseq { q with st := .due }
  else match goodCount? outcome, s.lest.f with
    | some n, some f =>
      (s.setSseq (q.accepted p.settleLimit)).setLest (s.lest.sample p.chars q.chan n (f.get q.chan))
    | _, _ => s.setSseq q.failed

/-- The outcome of the count operation (R37, R41): late, or judged in WAIT. -/
def countOutcome (outcome : Option (BitVec 16)) (s : State) : State :=
  if s.sseq.late then s.setSseq { s.sseq with late := false }
  else match s.csto.loaded, s.sseq.st with
    | some p, .wait => classifyCount p outcome s
    | _, _ => s

/-- A count operation ends (R15, R37, R41). -/
def countArrival (outcome : Option (BitVec 16)) (s : State) : State :=
  if s.lsb.inFlight = some .count then settle (busNext (countOutcome outcome s)) else s

/-- COUNT_ARRIVAL. -/
def execCountArrival (outcome : Option (BitVec 16)) (s : State) : Host.Outcome State Fault Refusal :=
  whenLive s (countArrival outcome s)

/-- The interval timer has reached its limit (R43). -/
def intervalExpiry (s : State) : State :=
  match s.csto.loaded, s.sseq.interval with
  | some p, some n =>
    if s.sseq.st = .idle && p.intervalLimit ≤ n then s.setSseq { s.sseq with interval := none, st := .due, chan := .r }
    else s
  | _, _ => s

/-- INTERVAL_TIMER_EXPIRY. -/
def execIntervalTimerExpiry (s : State) : Host.Outcome State Fault Refusal := whenLive s (intervalExpiry s)

/-- What the settle timeout does at the sequencer (R45). -/
def Sseq.timeout (q : Sseq) : Sseq := { q.dark.abandon with late := q.late || q.st = .wait }

/-- The settle timeout count has reached its limit (R45). -/
def settleTimeout (s : State) : State :=
  match s.csto.loaded, s.sseq.settleCount with
  | some p, some n =>
    if s.sseq.settling && p.settleLimitTicks ≤ n then
      settle ((s.setLsb (if s.sseq.st = .armed then s.lsb.withdrawCount else s.lsb)).setSseq s.sseq.timeout)
    else s
  | _, _ => s

/-- SETTLE_TIMEOUT. -/
def execSettleTimeout (s : State) : Host.Outcome State Fault Refusal := whenLive s (settleTimeout s)

end Sys2Proof.Machine
end

