-- ==== Sys2Proof/Machine/Store.lean ====
section
/-! DEFINITION. The characterization store (R159 to R172): the load, the FIXTURE commands, burning, and what an answer reads. -/

namespace Sys2Proof.Machine

/-! ### The load -/

/-- Two bytes of the array as a number, the upper byte first. -/
def Memory.word (m : Memory) (a : Nat) : Nat := word16 (m.read a) (m.read (a + 1))

/-- The channel block that starts at byte `base` (THE STORE, note 1). -/
def charChannelAt (m : Memory) (base : Nat) : CharChannel :=
  { lRef := m.word base, sRef := m.word (base + 2), curve := (List.range 9).map fun i => m.word (base + 4 + 2 * i) }

/-- The three channel blocks. -/
def charBlocks (m : Memory) : Rgb CharChannel := ⟨charChannelAt m 8, charChannelAt m 30, charChannelAt m 52⟩

/-- The check of a channel block (R162). -/
def CharChannel.valid (c : CharChannel) : Bool :=
  256 ≤ c.lRef && c.sRef != 0 && c.curve.all (fun p => 16384 ≤ p && p ≤ 40960) && c.curve.getD 3 0 = 32768

/-- The CHAR section is valid: every check of R162 holds. -/
def charValid (m : Memory) : Bool :=
  m.readMany 0 8 = [0x45, 0x54, 0x34, 0x36, 0x01, 80, 0, 0] && m.readMany 74 4 = [0, 0, 0, 0] &&
  m.word 78 = (crc16 (m.readMany 0 78)).toNat &&
  (charBlocks m).r.valid && (charBlocks m).g.valid && (charBlocks m).b.valid

/-- The nominal values of a channel (R162). -/
def nominalChannel : CharChannel := { lRef := 8192, sRef := 8192, curve := List.replicate 9 32768 }

/-- The loaded CHAR values: those held, or the nominal ones for every channel (R162). -/
def loadChars (m : Memory) : Rgb CharChannel := if charValid m then charBlocks m else Rgb.all nominalChannel

/-- The SET section's version and CRC hold (R163). -/
def setValid (m : Memory) : Bool := m.read 93 = 0x01 && m.word 94 = (crc16 (m.readMany 80 14)).toNat

/-- The default settings (R163), with the CHAR part given. -/
def defaultParams (chars : Rgb CharChannel) (uncal : Bool) : Params :=
  { chars := chars, uncal := uncal, period := 30, staleLimit := 4, goneLimit := 12, headroomLoss := 16, floorRatio := 179,
    gainFloor := 160, slewStep := 4, tHot := 55, tCrit := 75, settleLimit := 3, senseInterval := 14, faultMask := 0xFFFF,
    setDefault := true }

/-- The stored settings, each field clamped to its range (R163). -/
def storedParams (m : Memory) (chars : Rgb CharChannel) (uncal : Bool) : Params :=
  let field (a lo hi : Nat) : Nat := clampNat lo hi (m.read a).toNat
  { chars := chars, uncal := uncal, period := field 80 8 255, staleLimit := field 81 2 15, goneLimit := field 82 3 60,
    headroomLoss := field 83 0 64, floorRatio := field 84 128 240, gainFloor := field 85 128 255, slewStep := field 86 1 64,
    tHot := field 87 40 70, tCrit := field 88 60 90, settleLimit := field 89 1 15, senseInterval := field 90 1 255,
    faultMask := m.read 91 ++ m.read 92, setDefault := false }

/-- The two relations, in their order (R163). -/
def Params.relate (p : Params) : Params :=
  { p with
    goneLimit := if p.goneLimit ≤ p.staleLimit then p.staleLimit + 1 else p.goneLimit
    tCrit := if p.tCrit < p.tHot + 5 then p.tHot + 5 else p.tCrit }

/-- The load result (R161 to R163). -/
def loadParams (m : Memory) : Params :=
  let uncal := !charValid m
  if setValid m then (storedParams m (loadChars m) uncal).relate else defaultParams (loadChars m) uncal

/-! ### Sections and locks -/

/-- The mark of the section that a byte lies in is set (THE ARRAY). -/
def lockedByte (marks : Byte) (a : Nat) : Bool :=
  if a < 80 then marks.getLsbD 0 else if a < 96 then marks.getLsbD 1 else if a < 127 then marks.getLsbD 2 else false

/-- The store is BURNING (R168, R169). -/
def Csto.burning (c : Csto) : Bool := c.burn.isSome

/-- The lock marks as an answer reads them (R171): byte 127, or during a LOCK the value it held at the acceptance. -/
def Csto.lockMarks (c : Csto) : Byte :=
  match c.burn with
  | some (.lock _ before) => before
  | _ => c.array.read 127

/-! ### FIXTURE commands -/

/-- BURN after the shared checks (R167). -/
def Csto.burnCommand (c : Csto) (args : List Byte) : Csto × FixtureStatus :=
  if !c.latch then (c, .noLatch)
  else match args with
    | [] => (c, .range)
    | off :: data =>
      let n := data.length
      if !(1 ≤ n && n ≤ 8) then (c, .range)
      else if 127 < off.toNat + n then (c, .range)
      else if (List.range n).any fun k => lockedByte (c.array.read 127) (off.toNat + k) then (c, .locked)
      else ({ c with burn := some (.bytes off.toNat data 0) }, .accepted)

/-- LOCK after the shared checks (R169). -/
def Csto.lockCommand (c : Csto) (args : List Byte) : Csto × FixtureStatus :=
  if !c.latch then (c, .noLatch)
  else match args with
    | [] => (c, .range)
    | marks :: _ =>
      if marks = 0 || marks &&& 0xF8 != 0 then (c, .range)
      else ({ c with burn := some (.lock marks (c.array.read 127)) }, .accepted)

/-- A FIXTURE payload decided at its EOB: the shared checks in their order, then the command's own (R165 to R170). -/
def Csto.fixture (c : Csto) (code : Byte) (args : List Byte) : Csto × FixtureStatus :=
  if !c.fixtureEnable then (c, .refused)
  else if !(1 ≤ code.toNat && code.toNat ≤ 4) then (c, .unknown)
  else if c.burning then (c, .busy)
  else if code = 0x01 then ({ c with latch := true }, .done)
  else if code = 0x04 then ({ c with latch := false }, .done)
  else if code = 0x02 then c.burnCommand args
  else c.lockCommand args

/-! ### Burning -/

/-- Every byte of the burn reads back as its data (R168). -/
def Csto.verifies (c : Csto) (offset : Nat) (data : List Byte) : Bool := c.array.readMany offset data.length = data

/-- The end of a burn (R168, R169). -/
def Csto.burnEnd (c : Csto) (r : LastResult) : Csto := { c with burn := none, latch := false, lastResult := r }

/-- A byte has been burned (R168): its old value OR its data byte, but for the bits that the cells did not take. -/
def Csto.burnByte (c : Csto) (missed : Byte) : Csto :=
  match c.burn with
  | some (.bytes off data i) =>
    let c' := { c with array := c.array.program (off + i) (data.getD i 0 &&& ~~~missed) }
    if i + 1 < data.length then { c' with burn := some (.bytes off data (i + 1)) }
    else c'.burnEnd (if c'.verifies off data then .done else .verify)
  | _ => c

/-- BURN_BYTE_COMPLETE (R168). -/
def execBurnByteComplete (missed : Byte) (s : State) : Host.Outcome State Fault Refusal :=
  whenLive s (s.setCsto (s.csto.burnByte missed))

/-- A LOCK has been burned (R169). -/
def Csto.lockByte (c : Csto) : Csto :=
  match c.burn with
  | some (.lock marks _) => { c with array := c.array.program 127 marks }.burnEnd .done
  | _ => c

/-- LOCK_COMPLETE (R169). -/
def execLockComplete (s : State) : Host.Outcome State Fault Refusal := whenLive s (s.setCsto s.csto.lockByte)

end Sys2Proof.Machine
end

