-- ==== Sys2Proof/Machine/Link.lean ====
section
/-! DEFINITION. Seam link signalling (R49 to R69): the receiver's phases, starting a frame, read-back and its ends, malformed
frames, the station's own completions (R72, R77), and a stuck line (R157). -/

namespace Sys2Proof.Machine

/-! ### Receiver -/

/-- The receiver starts a frame (R52); no window is open any more, and the mark of an ended attempt goes (log 35). -/
def Slc.enterMain (l : Slc) : Slc :=
  { l with phase := .main, recessive := 0, rx := some .fresh, window := none, mark := .none }

/-- A recessive time that restarts (R55); the mark of an ended attempt goes (log 35). -/
def Slc.pulseSeen (l : Slc) : Slc := { l with recessive := 0, mark := .none }

/-- A valid main part opens its reply window (R57, R64). That the frame in reception keeps the main part's bytes from here on, and that
no reply bit enters it, is the model's choice (log 40). -/
def Slc.openWindow (l : Slc) (f : Frame) (own : Bool) : Slc :=
  { l with
    phase := .window, recessive := 2, rx := some f.received,
    window := some { frame := f, own := own, seen := 0, running := true, first := .nothing, answer := none,
                     musterCount := 0, lastMuster := none } }

/-- The open window, where the next reply block lies in an allowed position with processing running (R65, R66). -/
def Slc.inPlace (l : Slc) : Option Window :=
  match l.window with
  | some w => if l.phase = .window && w.running && w.seen < w.frame.body.kind.blocksAllowed then some w else none
  | none => none

/-- A malformed frame at the controller: discarded, HUNT; an own main part ends without completing (R59, R63). At EOF the 4 bit
times that HUNT waits for have passed, and the receiver is in READY (R55; log 34). The mark of the attempt goes (log 35). An own
main part whose read-back has not come yet ends here with no bit error: that it comes first is the model's choice (log 38). -/
def Slc.malformed (l : Slc) (f : Finding) : Slc :=
  let l' := if l.sendingMain then l.stop .stopped else l
  { l' with
    phase := if isEof f then .ready else .hunt, recessive := if isEof f then 4 else 0, rx := none, mark := .none }

/-- A frame is found malformed (R59). -/
def malformed (f : Finding) (s : State) : State := confine Fc.receiveError (s.setSlc (s.slc.malformed f))

/-- A reply block in error at the controller (R66): processing stops; an own reply or muster try ends with it (R80), with no
bit error where its read-back has not come first (log 38); the block is counted among those seen (log 39); the recessive time stands
as the finding leaves it (R51). -/
def Slc.replyError (l : Slc) (w : Window) (f : ReplyFinding) : Slc :=
  let l' := (if l.sendingReply then l.stop .stopped else l).musterDone
  { l' with
    recessive := findingRecessive f
    window := some { w with running := false, seen := w.seen + 1, first := if w.seen = 0 then .error else w.first } }

/-- A reply block is found in error (R66). -/
def replyError (w : Window) (f : ReplyFinding) (s : State) : State := confine Fc.receiveError (s.setSlc (s.slc.replyError w f))

/-- A block of the window is passed over, being out of place or coming after processing has stopped (R65, R66): the receiver
follows the gaps, with `n` bit times of recessive time now; the mark of an ended attempt goes (log 35). That the block is not counted
among the reply blocks seen is the model's choice (log 39). -/
def Slc.passOver (l : Slc) (n : Nat) : Slc :=
  if l.phase = .window && l.window.isSome && l.inPlace.isNone && l.tx.isNone then { l with recessive := n, mark := .none } else l

/-- What the receiver is at when a finding can be made: a frame in reception, or, for an own SOF, READY with the sending of it
stopped (R62; log 28). -/
def Slc.judges (l : Slc) : Finding → Bool
  | .ownSof _ => l.phase = .ready && l.mark = .stopped
  | .byteEnd _ | .symbol _ _ | .framing _ _ | .eof _ => l.phase = .main

/-- MALFORMED_FRAME (R59). -/
def execMalformedFrame (f : Finding) (s : State) : Host.Outcome State Fault Refusal :=
  whenLive s (if s.slc.judges f && findingFound f then malformed f s else s)

/-- RECEIVER_READY (R55): 4 bit times of recessive time in HUNT. -/
def execReceiverReady (s : State) : Host.Outcome State Fault Refusal :=
  whenLive s
    (if s.slc.phase = .hunt && !s.fc.busStuck then s.setSlc { s.slc with phase := .ready, recessive := 4 } else s)

/-- A pulse of another station's (R51, R52, R55): an SOF in READY starts a frame, another pulse there is stray; in HUNT every
pulse is ignored; in a main part or a reply block a pulse that is no bit is a symbol error (log 28). Every pulse begins the
recessive time anew (R51). In READY with an own SOF on the line the pulse is that SOF's, and its read-back judges it. In a frame or
block that the station sends, that the read-back of such a pulse comes before this command is the model's choice (log 38). -/
def startOfFrame (t pulse : Nat) (s : State) : State :=
  match s.slc.phase with
  | .hunt => s.setSlc s.slc.pulseSeen
  | .ready =>
    if s.slc.tx.isSome then s
    else if pulseClass pulse = .sof then (s.setSlc s.slc.enterMain).setFc (s.fc.sof t)
    else s.setSlc s.slc.pulseSeen
  | .main => if isBitPulse pulse then s.setSlc { s.slc with recessive := 0 } else malformed (.symbol [] pulse) s
  | .window =>
    match s.slc.inPlace with
    | some w => if isBitPulse pulse then s.setSlc { s.slc with recessive := 0 } else replyError w (.symbol pulse) s
    | none => s.setSlc { s.slc with recessive := 0 }

/-- START_OF_FRAME. -/
def execStartOfFrame (t pulse : Nat) (s : State) : Host.Outcome State Fault Refusal := whenLive s (startOfFrame t pulse s)

/-! ### Choosing and starting a frame -/

/-- The STAKE frame of a slot content (R94). -/
def StakeReq.frame (x : StakeReq) : Frame := { src := 63, tgt := addrByte x.target, body := .stake x.uid x.mode.code }

/-- The ASK frame of a slot content (R82). -/
def AskReq.frame (x : AskReq) (src : Byte) : Frame := { src := src, tgt := addrByte x.target, body := .ask x.selector }

/-- The NOTICE frame captured at its start (R77). -/
def State.noticeFrame (s : State) : Frame :=
  { src := s.ownByte, tgt := 62, body := .notice (s.lest.triple.map (BitVec.ofNat 16)) s.lest.ownFlags }

/-- The MUSTER frame with a start address (R79). -/
def musterFrame (src start : Byte) : Frame := { src := src, tgt := 62, body := .muster start }

/-- The frame chosen in RUN: the pending slot with the lowest kind code (R71). -/
def State.runFrame (s : State) : Option Frame :=
  match s.slc.stake.content, s.slc.ask.content, s.slc.notice.content, s.slc.muster.content with
  | some x, _, _, _ => some x.frame
  | none, some x, _, _ => some (x.frame s.ownByte)
  | none, none, some _, _ => some s.noticeFrame
  | none, none, none, some start => some (musterFrame s.ownByte start)
  | none, none, none, none => none

/-- The frame that the present states allow and the choice takes (R71). -/
def State.chosenFrame (s : State) : Option Frame :=
  if s.fc.link = .active then
    match s.sid.st with
    | .claiming => s.slc.stake.content.map StakeReq.frame
    | .run => s.runFrame
    | .load | .listen | .unaddressed => none
  else none

/-- An own SOF that reads back as one starts a frame at the own receiver too (R52); its dominant part is over. -/
def Slc.sofSent (l : Slc) (f : Frame) : Slc := { l.enterMain.start (.main f) with driver := .released }

/-- An own SOF whose pulse is no SOF is stray at the own receiver, which stays in READY (R51, R55), until the read-back ends the
attempt (R60): below 9 µs the driver is still on (log 28). -/
def Slc.sofFailed (l : Slc) (f : Frame) (pulse : Nat) : Slc :=
  { l.pulseSeen.start (.main f) with driver := if pulse < 9000 then .driving else .released }

/-- The line is idle (R56, R71): the chosen frame's SOF is driven, and its pulse classed (R51, R52). -/
def transmitStart (sof : SofSent) (s : State) : State :=
  if s.slc.phase = .ready && s.slc.tx.isNone then
    match s.chosenFrame with
    | some f =>
      if pulseClass sof.pulse = .sof then (s.setSlc (s.slc.sofSent f)).setFc (s.fc.sof sof.moment)
      else s.setSlc (s.slc.sofFailed f sof.pulse)
    | none => s.setSlc { s.slc with recessive := 6 }
  else s

/-- TRANSMIT_START. -/
def execTransmitStart (sof : SofSent) (s : State) : Host.Outcome State Fault Refusal := whenLive s (transmitStart sof s)

/-! ### The symbols being sent -/

/-- The bits among the symbols of `x` before number `pos`. -/
def Sending.bitsBefore (x : Sending) (pos : Nat) : List Bool := (x.symbols.take pos).filterMap Sent.bit?

/-- The dominant part of the symbol being sent ends as sent: the driver is released (R49, R50), and in a main part the own
receiver has the bit (R57); a reply's bits do not enter the frame in reception (log 40). -/
def Slc.dominantEnds (l : Slc) (x : Sending) : Slc :=
  { l with
    driver := .released
    rx := if l.sendingMain && l.phase = .main then
            match (x.symbols[l.txPos]?).bind Sent.bit? with
            | some b => l.rx.map fun r => r.bit b
            | none => l.rx
          else l.rx }

/-- The recessive part of the symbol being sent ends: the next symbol is driven, where there is one and the own SOF has started
a frame (R50). -/
def Slc.recessiveEnds (l : Slc) (x : Sending) : Slc :=
  if l.phase != .ready && l.txPos + 1 < x.symbols.length then { l with driver := .driving, txPos := l.txPos + 1 } else l

/-- One part of the symbol being sent passes as sent (R49, R50); a station that sends nothing waits. -/
def Slc.partPasses (l : Slc) : Slc :=
  match l.tx, l.driver with
  | none, _ => l
  | some x, .driving => l.dominantEnds x
  | some x, .released => l.recessiveEnds x

/-- A step with no command waiting: line time passes at the station's own transmission (R49, R50; log 19). -/
def lineTime (s : State) : Host.Outcome State Fault Refusal := whenLive s (s.setSlc s.slc.partPasses)

/-! ### Read-back -/

/-- The phase in which symbol `pos` of `x` can still read back other than as sent: the own SOF before it has started a frame, the
other symbols of a main part in MAIN, those of a reply in WINDOW (R52, R64). -/
def Sending.phaseAt : Sending → Nat → Phase
  | .main _, 0 => .ready
  | .main _, _ + 1 => .main
  | _, _ => .window

/-- How symbol `pos` of what the station is sending has read back; none where it sends no such symbol, also where a finding at its own
receiver has ended the sending first (log 38). -/
def Slc.readBack (l : Slc) (pos pulse : Nat) : Option ReadBack :=
  match l.tx with
  | some x => if l.phase = x.phaseAt pos then x.readBack pos pulse else none
  | none => none

/-- The pulse that symbol `pos` made on the line begins the recessive time anew (R51), and of the own main part the own receiver
has the bits before that symbol, and there the bit that the line carried (R57, R60, R61). -/
def Slc.takeOwnBits (l : Slc) (pos pulse : Nat) : Slc :=
  { l with
    recessive := 0
    rx :=
      match l.tx with
      | some (.main f) =>
        if l.phase = .main then some (.ofBits ((Sending.main f).bitsBefore pos ++ (pulseBit? pulse).toList)) else l.rx
      | _ => l.rx }

/-- A lost contest (R61): a main part stays pending; a contest or muster byte is lost, and the muster reply goes on waiting
(R80); an answer or status byte is abandoned. -/
def Slc.lose (l : Slc) : Slc :=
  match l.tx with
  | some (.main _) => l.stop .lost
  | some (.contest _) | some (.muster _) => l.release .lost
  | some (.status _) | some (.answer _ _) => l.release .abandoned
  | none => l

/-- ARBITRATION_LOSS (R60, R61). -/
def execArbitrationLoss (pos pulse : Nat) (s : State) : Host.Outcome State Fault Refusal :=
  whenLive s (if s.slc.readBack pos pulse = some .lost then s.setSlc (s.slc.takeOwnBits pos pulse).lose else s)

/-- The station stops sending on an error (R62); a muster reply is done, with no byte placed (R80). -/
def Slc.stopOnError (l : Slc) : Slc :=
  if l.sendingReply then (l.stop .stopped).musterDone else l.stop .stopped

/-- BIT_ERROR (R60, R62, R147, R149). -/
def execBitError (pos pulse : Nat) (s : State) : Host.Outcome State Fault Refusal :=
  whenLive s
    (if s.slc.readBack pos pulse = some .bitError then
       confine Fc.bitError (s.setSlc (s.slc.takeOwnBits pos pulse).stopOnError)
     else s)

/-- SEND_SYMBOL_ERROR (R60, R62). -/
def execSendSymbolError (pos pulse : Nat) (s : State) : Host.Outcome State Fault Refusal :=
  whenLive s
    (if s.slc.readBack pos pulse = some .symbolError then s.setSlc (s.slc.takeOwnBits pos pulse).stopOnError else s)

/-! ### Own completions (R63, R72) -/

/-- The own main part of kind `k` that is on the line with every bit as sent. -/
def Slc.ownFrame (l : Slc) (k : Kind) : Option Frame :=
  match l.tx with
  | some (.main f) => if f.body.kind = k && l.phase = .main && l.mark = .asSent then some f else none
  | _ => none

/-- An own main part completes: to fault confinement (R68), to the slot (R72), the window opens, the owner takes it by
`handle`, and last a change of link state is handed on. That the own-attempt mark is none from there on is the model's choice
(log 35). -/
def ownComplete (k : Kind) (handle : Frame → State → State) (s : State) : State :=
  match s.slc.ownFrame k with
  | some f =>
    let l := ((s.slc.release .none).completeSlot k).openWindow f true
    linkHandOff s.fc.link (handle f ((s.setSlc l).setFc (s.fc.validMain true)))
  | none => s

/-- The reported values reach the estimator, which evaluates the significant-change test (R28, R30). -/
def takeReported (lum : Rgb (BitVec 16)) (flags : Byte) (s : State) : State :=
  let s1 := s.setLest { s.lest with lRep := some (lum.map BitVec.toNat), flagsRep := some flags }
  if s1.lest.significant then s1.setSlc (earlyRequest s1.sid.st s1.slc) else s1

/-- What a completed NOTICE does at the controller and the estimator (R75, R77, R28). -/
def noticeDone (f : Frame) (s : State) : State :=
  let timer := if s.sid.st = .run then some s.period else s.slc.reportTimer
  let s1 := s.setSlc { s.slc with spacing := 0, deferred := false, reportTimer := timer }
  match f.body with
  | .notice lum flags => takeReported lum flags s1
  | _ => s1

/-- OWN_NOTICE_COMPLETE (R77). -/
def execOwnNoticeComplete (s : State) : Host.Outcome State Fault Refusal := whenLive s (ownComplete .notice noticeDone s)

/-- OWN_ASK_COMPLETE (R72, R121). -/
def execOwnAskComplete (s : State) : Host.Outcome State Fault Refusal :=
  whenLive s (ownComplete .ask (fun _ => askCompleted) s)

/-- OWN_STAKE_COMPLETE (R72, R95): the window is judged at EOF. -/
def execOwnStakeComplete (s : State) : Host.Outcome State Fault Refusal :=
  whenLive s (ownComplete .stake (fun _ x => x) s)

/-- OWN_MUSTER_COMPLETE (R72, R79): the window's blocks are collected until EOF. -/
def execOwnMusterComplete (s : State) : Host.Outcome State Fault Refusal :=
  whenLive s (ownComplete .muster (fun _ x => x) s)

/-! ### A stuck line (R157) -/

/-- The pulse of `dominant` µs that holds the line, at the signalling (R51): the frame in reception is malformed, a reply block in
place is in error; in HUNT and READY it is not reported (log 11). -/
def stuckPulse (dominant : Nat) (s : State) : State :=
  match s.slc.phase, s.slc.inPlace with
  | .main, _ => malformed (.symbol [] (1000 * dominant)) s
  | .window, some w => replyError w (.symbol (1000 * dominant)) s
  | _, _ => s

/-- The receiver in HUNT under BUS_STUCK; the station sends nothing on, and the mark of an ended attempt goes (log 35). That
no frame is in reception then, where a window is open too, is the model's choice (log 40). -/
def Slc.stuck (l : Slc) : Slc :=
  { (if l.tx.isSome then l.stop .stopped else l) with phase := .hunt, recessive := 0, rx := none, mark := .none }

/-- BUS_STUCK at fault confinement. -/
def Fc.stuck (f : Fc) (dominant : Nat) : Fc := { f with stuckFor := some dominant, busStuck := true }

/-- The line has been dominant for more than 1 ms with the own driver off (R157). -/
def busStuckSet (dominant : Nat) (s : State) : State :=
  if 1000 < dominant && s.slc.driver = .released then
    let s1 := stuckPulse dominant s
    handEvents 0 ((s1.setSlc s1.slc.stuck).setFc (s1.fc.stuck dominant))
  else s

/-- BUS_STUCK_SET. -/
def execBusStuckSet (dominant : Nat) (s : State) : Host.Outcome State Fault Refusal := whenLive s (busStuckSet dominant s)

end Sys2Proof.Machine
end

