-- ==== Sys2Proof/Machine/Frames.lean ====
section
/-! DEFINITION. Valid main parts of other stations (R63, R68, R87): delivery by kind, the claim exchange at EOB (R98, R99), the
answers (R83, R84) and the FIXTURE commands (R165). -/

namespace Sys2Proof.Machine

/-! ### Delivery -/

/-- The sign of life or report that a main part is, at the peer table (R78, R87). -/
def deliverToTable (f : Frame) (s : State) : State :=
  match f.body with
  | .notice lum flags =>
    match addrOf? f.src with
    | some a => peerReport a (lum.map BitVec.toNat) flags s
    | none => s
  | .ask _ | .muster _ | .fixture _ => signOfLife f.src s
  | .stake _ _ => s

/-- The main part at fault confinement (R68): the window opens, the counts move, LINK_NOISY is handed on. -/
def receiveMain (f : Frame) (s : State) : State :=
  handEvents 0 ((s.setSlc (s.slc.openWindow f false)).setFc (s.fc.validMain false))

/-- The deliveries of a main part to the peer table and to station identity, once loading has ended (R87). -/
def deliver (f : Frame) (s : State) : State :=
  if s.csto.loaded.isSome then deliverToTable f (duplicateTest f.src s) else s

/-- A valid main part of another station (R63, R68, R87): to fault confinement, to the peer table and station identity, to the
handling of its kind with the link state `link` of its EOB (R150), and last a change of link state is handed on. A main part
whose bits the receiver does not find valid is malformed (R57, R59). -/
def frameReceived (f : Frame) (handle : LinkState → State → State) (s : State) : State :=
  if s.slc.phase = .main && !s.slc.sendingMain then
    if f.received.valid then
      let s1 := deliver f (receiveMain f s)
      linkHandOff s.fc.link (if s.csto.loaded.isSome then handle s.fc.link s1 else s1)
    else malformed (.byteEnd (lineBits f.bytes)) s
  else s

/-- The station may reply in the window of the main part just received (R71). -/
def mayReply (link : LinkState) (s : State) : Bool := link = .active && s.sid.st = .run

/-! ### NOTICE, MUSTER, STAKE -/

/-- NOTICE_RECEIVED (R78, R110, R118). -/
def execNoticeReceived (src : Byte) (lum : Rgb (BitVec 16)) (flags : Byte) (s : State) : Host.Outcome State Fault Refusal :=
  whenLive s (frameReceived { src := src, tgt := 62, body := .notice lum flags } (fun _ => settle) s)

/-- The station's own muster byte goes out at a block position (R80). -/
def Slc.musterTry (l : Slc) (a : Addr) : Slc := { l with musterReply := .waiting }.start (.muster (addrByte a))

/-- The muster reply at the EOB of the main part (R80). -/
def musterReplyStart (start : Byte) (link : LinkState) (s : State) : State :=
  match s.sid.own with
  | some a => if mayReply link s && start.toNat ≤ a.val then s.setSlc (s.slc.musterTry a) else s
  | none => s

/-- MUSTER_RECEIVED (R80, R87). -/
def execMusterReceived (src start : Byte) (s : State) : Host.Outcome State Fault Refusal :=
  whenLive s (frameReceived { src := src, tgt := 62, body := .muster start } (musterReplyStart start) s)

/-- A holder contests a STAKE: FRESH always, HELD unless its UID is the lower (R98). -/
def contests (mode : StakeMode) (uid own : BitVec 64) : Bool := mode = .fresh || own.toNat ≤ uid.toNat

/-- A STAKE at station identity at its EOB (R98, R99): a holder in RUN and ACTIVE contests it or yields. What a claimant does
(R97) waits for EOF. -/
def stakeAtEob (tgt : Byte) (uid : BitVec 64) (mode : Byte) (link : LinkState) (s : State) : State :=
  match s.sid.own with
  | some a =>
    if mayReply link s && tgt = addrByte a then
      if contests (stakeModeOf mode) uid s.sid.uid then s.setSlc (s.slc.start (.contest (addrByte a)))
      else yieldAddress a (s.setSid { s.sid with decision := .yielding })
    else s
  | none => s

/-- STAKE_RECEIVED (R97 to R99). -/
def execStakeReceived (src tgt : Byte) (uid : BitVec 64) (mode : Byte) (s : State) : Host.Outcome State Fault Refusal :=
  whenLive s (frameReceived { src := src, tgt := tgt, body := .stake uid mode } (stakeAtEob tgt uid mode) s)

/-! ### Answers (R84) -/

/-- CAPABILITY data. -/
def capabilityData (s : State) : List Byte := rgbBytes s.lest.triple ++ [s.lest.ownFlags]

/-- STATUS and STATUS_CLEAR data (R176). -/
def statusData (s : State) : List Byte :=
  bytes16 s.evu.raw ++ bytes16 s.evu.latched ++
    [s.sid.st.code, s.fc.link.code, BitVec.ofNat 8 s.fc.tec, BitVec.ofNat 8 s.fc.recCount]

/-- IDENTITY data (R90). -/
def identityData (s : State) : List Byte := bytes64 s.sid.uid ++ [s.ownByte]

/-- The outlier marks byte (R180). -/
def marksByte (m : Rgb Bool) : Byte := boolByte m.r ||| (boolByte m.g <<< 1) ||| (boolByte m.b <<< 2)

/-- GAINS data (R144). -/
def gainsData (s : State) : List Byte :=
  rgbBytes s.tge.applied ++
    [BitVec.ofNat 8 s.tge.size, marksByte s.tge.marks, boolByte s.tge.floored ||| (boolByte s.tge.belowFloor <<< 1)]

/-- TARGETS data (R145). -/
def targetsData (s : State) : List Byte :=
  rgbBytes (s.tge.target.getD (Rgb.all 0)) ++ rgbBytes (s.tge.median.getD (Rgb.all 0))

/-- STORE_STATE data (R171). -/
def storeStateData (s : State) : List Byte :=
  [boolByte s.csto.burning, boolByte s.csto.latch, s.csto.lastResult.code, s.csto.lockMarks]

/-- The answer to a PAGE (R171). -/
def pageAnswer (page : Nat) (s : State) : Byte × List Byte :=
  if s.csto.burning then (answerBusy, []) else (answerOk, s.csto.array.readMany (8 * page) 8)

/-- Status and data for a selector (R84). -/
def answerFor (selector : Byte) (s : State) : Byte × List Byte :=
  match selector.toNat with
  | 0 => (answerOk, capabilityData s)
  | 1 => (answerOk, statusData s)
  | 2 => (answerOk, statusData s)
  | 3 => (answerOk, identityData s)
  | 4 => (answerOk, gainsData s)
  | 5 => (answerOk, targetsData s)
  | 6 => (answerOk, storeStateData s)
  | n => if 0x80 ≤ n ∧ n ≤ 0x8F then pageAnswer (n - 0x80) s else (answerUnknown, [])

/-- The whole answer as it is captured (R83, R85). -/
def captureFor (selector : Byte) (s : State) : Capture :=
  { block := answerBlock (answerFor selector s).1 (answerFor selector s).2
    clears := if selector = 0x02 then some s.evu.latched else none }

/-- The answer is captured and its block started (R83); the STATUS_CLEAR capture clears every arisal mark (R177). -/
def giveAnswer (selector : Byte) (s : State) : State :=
  let c := captureFor selector s
  let s1 := s.setSlc ({ s.slc with capture := some c }.start (.answer c.block c.clears))
  if selector = 0x02 then s1.setEvu s1.evu.clearMarks else s1

/-- An ASK at its target (R83). -/
def askAtEob (tgt selector : Byte) (link : LinkState) (s : State) : State :=
  match s.sid.own with
  | some a => if mayReply link s && tgt = addrByte a then giveAnswer selector s else s
  | none => s

/-- An ASK main part of another station's. -/
def askReceived (src tgt selector : Byte) (s : State) : State :=
  frameReceived { src := src, tgt := tgt, body := .ask selector } (askAtEob tgt selector) s

/-- CAPABILITY (R84). -/
def execCapability (src tgt : Byte) (s : State) : Host.Outcome State Fault Refusal := whenLive s (askReceived src tgt 0x00 s)

/-- STATUS (R84, R176). -/
def execStatus (src tgt : Byte) (s : State) : Host.Outcome State Fault Refusal := whenLive s (askReceived src tgt 0x01 s)

/-- STATUS_CLEAR (R84, R85, R177). -/
def execStatusClear (src tgt : Byte) (s : State) : Host.Outcome State Fault Refusal := whenLive s (askReceived src tgt 0x02 s)

/-- IDENTITY (R84, R90). -/
def execIdentity (src tgt : Byte) (s : State) : Host.Outcome State Fault Refusal := whenLive s (askReceived src tgt 0x03 s)

/-- GAINS (R84, R144). -/
def execGains (src tgt : Byte) (s : State) : Host.Outcome State Fault Refusal := whenLive s (askReceived src tgt 0x04 s)

/-- TARGETS (R84, R145). -/
def execTargets (src tgt : Byte) (s : State) : Host.Outcome State Fault Refusal := whenLive s (askReceived src tgt 0x05 s)

/-- STORE_STATE (R84, R171). -/
def execStoreState (src tgt : Byte) (s : State) : Host.Outcome State Fault Refusal := whenLive s (askReceived src tgt 0x06 s)

/-- PAGE (R84, R171). -/
def execPage (src tgt : Byte) (page : BitVec 4) (s : State) : Host.Outcome State Fault Refusal :=
  whenLive s (askReceived src tgt (0x80 + page.setWidth 8) s)

/-- UNKNOWN_SELECTOR (R84). -/
def execUnknownSelector (src tgt selector : Byte) (s : State) : Host.Outcome State Fault Refusal :=
  whenLive s (askReceived src tgt selector s)

/-! ### FIXTURE commands (R165) -/

/-- A FIXTURE at its target, whatever its states: the store decides in this event; in RUN and ACTIVE the status byte goes out
(R152, R165). -/
def fixtureAtEob (tgt code : Byte) (args : List Byte) (link : LinkState) (s : State) : State :=
  match s.sid.own with
  | some a =>
    if tgt = addrByte a then
      let r := s.csto.fixture code args
      let s1 := s.setCsto r.1
      if mayReply link s1 then s1.setSlc (s1.slc.start (.status r.2.code)) else s1
    else s
  | none => s

/-- A FIXTURE main part of another station's. -/
def fixtureReceived (src tgt code : Byte) (args : List Byte) (s : State) : State :=
  frameReceived { src := src, tgt := tgt, body := .fixture (code :: args) } (fixtureAtEob tgt code args) s

/-- ARM (R166). -/
def execArm (src tgt : Byte) (rest : List Byte) (s : State) : Host.Outcome State Fault Refusal :=
  whenLive s (fixtureReceived src tgt 0x01 rest s)

/-- DISARM (R166). -/
def execDisarm (src tgt : Byte) (rest : List Byte) (s : State) : Host.Outcome State Fault Refusal :=
  whenLive s (fixtureReceived src tgt 0x04 rest s)

/-- BURN (R167, R168). -/
def execBurn (src tgt : Byte) (args : List Byte) (s : State) : Host.Outcome State Fault Refusal :=
  whenLive s (fixtureReceived src tgt 0x02 args s)

/-- LOCK (R169). -/
def execLock (src tgt : Byte) (args : List Byte) (s : State) : Host.Outcome State Fault Refusal :=
  whenLive s (fixtureReceived src tgt 0x03 args s)

/-- UNKNOWN_COMMAND (R165, R166). -/
def execUnknownCommand (src tgt code : Byte) (rest : List Byte) (s : State) : Host.Outcome State Fault Refusal :=
  whenLive s (fixtureReceived src tgt code rest s)

end Sys2Proof.Machine
end

