-- ==== Sys2Proof/Machine/Replies.lean ====
section
/-! DEFINITION. Reply windows (R64 to R68, R81, R82, R85, R88) and what EOF decides: the STAKE window (R95 to R100, R104), the
ASK outcome (R82), the muster run (R79). -/

namespace Sys2Proof.Machine

/-! ### Blocks of other stations -/

/-- The window of kind `k` in which another station's block can be delivered now (R65 to R67). -/
def Slc.blockPlace (l : Slc) (k : Kind) : Option Window :=
  match l.inPlace with
  | some w => if w.frame.body.kind = k && !l.sendingReply then some w else none
  | none => none

/-- A block of another station's has ended and takes its position (R66), before loading ends too (log 41); the mark of an ended
attempt goes (log 35). -/
def Slc.takeBlock (l : Slc) (w : Window) : Slc :=
  { l with
    recessive := 2, mark := .none,
    window := some { w with seen := w.seen + 1, first := if w.seen = 0 then .delivered else w.first } }

/-- A reply value at the peer table, once loading has ended (R81, R88). -/
def deliverLife (value : Byte) (s : State) : State := if s.csto.loaded.isSome then signOfLife value s else s

/-- A block of another station's that is not delivered has ended, and its EOB is reached (R54, R65, R66). -/
def blockPassed (s : State) : State := s.setSlc (s.slc.passOver 2)

/-- A contest byte of another station's (R88, R95): the window is contested. -/
def contestByte (value : Byte) (s : State) : State :=
  match s.slc.blockPlace .stake with
  | some w => deliverLife value (s.setSlc (s.slc.takeBlock w))
  | none => blockPassed s

/-- CONTEST_BYTE_RECEIVED. -/
def execContestByteReceived (value : Byte) (s : State) : Host.Outcome State Fault Refusal := whenLive s (contestByte value s)

/-- At the sender of the MUSTER every delivered block is counted, and the last value kept (R81). -/
def Window.countMuster (w : Window) (value : Byte) : Window :=
  if w.own then { w with musterCount := w.musterCount + 1, lastMuster := some value } else w

/-- The muster reply at the position after a block (R80): a waiting station tries again, unless the window is full. -/
def musterNext (s : State) : State :=
  match s.slc.musterReply, s.sid.own, s.slc.inPlace with
  | .waiting, some a, some _ => s.setSlc (s.slc.musterTry a)
  | .waiting, _, _ => s.setSlc s.slc.musterDone
  | _, _, _ => s

/-- A muster byte of another station's (R80, R81). -/
def musterByte (value : Byte) (s : State) : State :=
  match s.slc.blockPlace .muster with
  | some w => musterNext (deliverLife value (s.setSlc (s.slc.takeBlock (w.countMuster value))))
  | none => blockPassed s

/-- MUSTER_BYTE_RECEIVED. -/
def execMusterByteReceived (value : Byte) (s : State) : Host.Outcome State Fault Refusal := whenLive s (musterByte value s)

/-- An answer block of another station's (R66, R82): kept with its check for the own ASK, discarded otherwise; beyond sixteen
bytes it is in error. -/
def answerReceived (block : List Byte) (s : State) : State :=
  match s.slc.blockPlace .ask with
  | some w =>
    if block.length = 0 then s
    else if 16 < block.length then replyError w (.pastSize (8 * block.length)) s
    else s.setSlc (s.slc.takeBlock (if w.own then { w with answer := some (answerCheck block, block) } else w))
  | none => blockPassed s

/-- ANSWER_BLOCK_RECEIVED. -/
def execAnswerBlockReceived (block : List Byte) (s : State) : Host.Outcome State Fault Refusal :=
  whenLive s (answerReceived block s)

/-- A FIXTURE status byte of another station's goes to no block (R88): it takes its position alone. -/
def fixtureStatusByte (s : State) : State :=
  match s.slc.blockPlace .fixture with
  | some w => s.setSlc (s.slc.takeBlock w)
  | none => blockPassed s

/-- FIXTURE_STATUS_BYTE_RECEIVED. -/
def execFixtureStatusByteReceived (_value : Byte) (s : State) : Host.Outcome State Fault Refusal :=
  whenLive s (fixtureStatusByte s)

/-! ### Reply errors and own replies -/

/-- The block that ended last was the station's own reply. -/
def Slc.ownJustEnded (l : Slc) (w : Window) : Bool :=
  l.tx.isNone && l.mark = .asSent && l.phase = .window && w.running && 0 < w.seen

/-- What was seen is an edge after a block. -/
def isEdge : ReplyFinding → Bool
  | .edge _ => true
  | _ => false

/-- The window whose block is in error, with the blocks before it (R66): the block after those seen, or, found by an edge after
it, the own reply that has just ended (log 31). A block out of place is ignored (R65). -/
def Slc.errorPlace (l : Slc) (e : ReplyError) : Option Window :=
  match l.window with
  | some w =>
    if !replyFindingFound w.frame.body.kind e.finding || w.frame.body.kind.blocksAllowed < e.pos then none
    else if e.pos = w.seen + 1 then l.inPlace
    else if e.pos = w.seen && isEdge e.finding && l.ownJustEnded w then some { w with seen := w.seen - 1 }
    else none
  | none => none

/-- A finding in a reply window (R66). One in a block that is passed over is not reported (R65). -/
def replyBlockError (e : ReplyError) (s : State) : State :=
  match s.slc.errorPlace e with
  | some w => replyError w e.finding s
  | none => s.setSlc (s.slc.passOver (findingRecessive e.finding))

/-- REPLY_BLOCK_ERROR. -/
def execReplyBlockError (e : ReplyError) (s : State) : Host.Outcome State Fault Refusal := whenLive s (replyBlockError e s)

/-- What the completion of an own reply does at its owner: a contest makes the window decision contested (R98), a STATUS_CLEAR
answer hands its clear request (R85, R178), a muster byte is done (R80). -/
def replyDone (x : Sending) (s : State) : State :=
  match x with
  | .contest _ => s.setSid { s.sid with decision := .contested }
  | .muster _ => s.setSlc s.slc.musterDone
  | .answer _ (some captured) => s.setEvu (s.evu.clearRequest captured)
  | .answer _ none | .status _ | .main _ => s

/-- The own reply block has gone to its end as sent (R67): it takes its position and is not delivered. That this comes at the
block's EOB, 2 bit times after its last bit, is the model's choice (log 36). -/
def ownReply (s : State) : State :=
  match s.slc.tx, s.slc.inPlace with
  | some x, some w =>
    if s.slc.sendingReply then
      replyDone x (s.setSlc { s.slc.release .asSent with recessive := 2, window := some { w with seen := w.seen + 1 } })
    else s
  | _, _ => s

/-- OWN_REPLY_COMPLETE. -/
def execOwnReplyComplete (s : State) : Host.Outcome State Fault Refusal := whenLive s (ownReply s)

/-! ### The STAKE window at EOF -/

/-- The window is contested (R95). -/
def State.contested (s : State) (w : Window) : Bool := w.first != .nothing || s.sid.decision = .contested

/-- The own STAKE at EOF (R95, R104). -/
def judgeOwnStake (tgt : Addr) (contested : Bool) (s : State) : State :=
  if s.sid.st = .claiming && s.sid.candidate = some tgt then
    if contested then giveUp tgt s else takeAddress tgt s
  else if s.sid.st = .run && s.sid.own = some tgt && s.sid.reassert then
    if contested then yieldAddress tgt s else s.setSid { s.sid with reassert := false }
  else s

/-- Another station's STAKE at EOF (R97, R99, R100): the choice that a yield has left to EOF is made, a claimant of the same
address gives it up, a holder that did not contest an uncontested STAKE yields. R97 speaks of the candidate a claimant has at the
main part's EOB; that one chosen between this EOB and EOF counts too is the model's choice (log 32). -/
def judgeOtherStake (tgt : Addr) (contested : Bool) (s : State) : State :=
  if s.sid.decision = .yielding then resumeChoice s
  else if s.sid.st = .claiming && s.sid.candidate = some tgt then giveUp tgt s
  else if s.sid.st = .run && s.sid.own = some tgt && !contested then yieldAddress tgt s
  else s

/-- An uncontested STAKE of another station's empties its target slot (R115), and a slot that so turns EMPTY is handed to
station identity (R119). -/
def emptySlot (tgt : Addr) (s : State) : State :=
  if (s.ptab.slots.get tgt).free = s.ptab.slots.get tgt then s else slotEmptied (actOnSlot tgt PeerSlot.free s)

/-- The STAKE window judged (R95, R115; log 18). -/
def judgeStake (w : Window) (s : State) : State :=
  match addrOf? w.frame.tgt with
  | some tgt =>
    let contested := s.contested w
    if w.own then judgeOwnStake tgt contested s
    else
      let s1 := judgeOtherStake tgt contested s
      if contested then s1 else emptySlot tgt s1
  | none => s

/-! ### The ASK outcome and the muster run at EOF -/

/-- The outcome of the own ASK (R82). -/
def Window.outcome (w : Window) : AskOutcome :=
  match w.answer with
  | some (true, block) =>
    match capabilityOf? block with
    | some (lum, flags) => .answered lum flags
    | none => .bad
  | some (false, _) => .bad
  | none => if w.first = .error then .bad else .silent

/-- The outcome goes to the peer table (R82, R122). -/
def finishAsk (w : Window) (s : State) : State :=
  match addrOf? w.frame.tgt with
  | some a => askOutcome a w.outcome s
  | none => s

/-- The start of the next MUSTER of a run, where the window calls for one (R79). -/
def Window.nextStart (w : Window) (start : Byte) : Option Byte :=
  match w.lastMuster with
  | some v =>
    if w.running && w.musterCount = 16 && start.toNat < v.toNat + 1 && v.toNat + 1 ≤ 47 then some (v + 1) else none
  | none => none

/-- The next step of the muster run (R79). -/
def musterStep (w : Window) (start : Byte) (s : State) : State :=
  if s.slc.musterRun then
    match w.nextStart start with
    | some v => s.setSlc (s.slc.fillMuster v)
    | none => s.setSlc { s.slc with musterRun := false }
  else s

/-! ### EOF -/

/-- What the window decides at EOF, by the frame's kind (R68, R88). -/
def finishWindow (w : Window) (s : State) : State :=
  match w.frame.body with
  | .stake _ _ => judgeStake w s
  | .ask _ => if w.own then finishAsk w s else s
  | .muster start => if w.own then musterStep w start s else s
  | .notice _ _ | .fixture _ => s

/-- The controller after EOF (R68, R88): READY, with no window, no answer capture and no muster reply; the mark of an ended attempt
goes (log 35). That the frame in reception ends here is the model's choice (log 40). -/
def Slc.closed (l : Slc) : Slc :=
  let l' := if l.tx.isSome then l.stop .stopped else l
  { l' with phase := .ready, recessive := 4, rx := none, window := none, mark := .none, capture := none,
            musterReply := .notReplying }

/-- The frame and its window are closed (R68); the window decision is cleared. -/
def closeFrame (w : Window) (s : State) : State :=
  let s1 := if s.csto.loaded.isSome then finishWindow w s else s
  settle ((s1.setSlc s1.slc.closed).setSid { s1.sid with decision := .none })

/-- EOF (R54, R55). -/
def frameEof (s : State) : State :=
  match s.slc.window with
  | some w => if s.slc.phase = .window then closeFrame w s else s
  | none => s

/-- FRAME_EOF. -/
def execFrameEof (s : State) : Host.Outcome State Fault Refusal := whenLive s (frameEof s)

/-! ### The end of a stuck line -/

/-- The line has been recessive for 4 bit times (R157): BUS_STUCK clears and the receiver enters READY. A window that the
stuck line found open has had its EOF (log 11). -/
def busStuckClear (s : State) : State :=
  if s.fc.busStuck then
    let s1 := s.setFc { s.fc with busStuck := false, stuckFor := none }
    match s1.slc.window with
    | some w => closeFrame w s1
    | none => handEvents 0 (s1.setSlc { s1.slc with phase := .ready, recessive := 4 })
  else s

/-- BUS_STUCK_CLEAR. -/
def execBusStuckClear (s : State) : Host.Outcome State Fault Refusal := whenLive s (busStuckClear s)

end Sys2Proof.Machine
end

