-- ==== Sys2Proof/Machine/Reset.lean ====
section
/-! DEFINITION. Reset (R5, R13, R17, R33, R48, R69, R89, R107, R125, R143, R146, R158, R161, R172, R179), its release, and the
end of loading (R164). -/

namespace Sys2Proof.Machine

/-! ### Reset -/

/-- The intended bits of the byte under burn that a reset leaves programmed: a free value (R172; log 8). -/
def resetBits (k : Nat) (intended : Byte) : Byte := intended &&& Config.resetBurnBits k

/-- The array after a reset (R172): the byte under burn holds its old value OR some of its intended bits. -/
def Csto.arrayAtReset (c : Csto) (k : Nat) : Memory :=
  match c.burn with
  | none => c.array
  | some (.bytes off data i) => c.array.program (off + i) (resetBits k (data.getD i 0))
  | some (.lock marks _) => c.array.program 127 (resetBits k marks)

/-- Every block at its reset value, with the reset line held. What no reset touches stays: the array but for a byte under burn,
the UID, what the driver chain holds (R143), the level of SWIN, the queue. -/
def resetState (s : State) : State :=
  { pins := { s.pins with resetHeld := true }, ftb := Ftb.reset, tmon := Tmon.reset, lsb := Lsb.reset,
    lest := Lest.reset, sseq := Sseq.reset, slc := Slc.reset, fc := Fc.reset, sid := Sid.reset s.sid.uid,
    ptab := Ptab.reset, tge := Tge.reset, drvp := Drvp.reset s.drvp.latched,
    csto := Csto.reset (s.csto.arrayAtReset s.freeReads), evu := Evu.reset,
    freeReads := s.freeReads + (if s.csto.burn.isSome then 1 else 0), pending := s.pending }

/-- RESET. -/
def execReset (s : State) : Host.Outcome State Fault Refusal := .next (resetState s)

/-- Reset release at moment `t` (R1, R5, R6, R13, R69, R158, R161): FXS is sampled; the sync-loss, poll and silence timers
start. -/
def release (t : Nat) (fxs : Bool) (s : State) : State :=
  ((((s.setPins { s.pins with resetHeld := false }).setFtb { s.ftb with syncTimer := some (afterMs t 40) }).setTmon
    { s.tmon with pollTimer := some (afterMs t 100) }).setFc { s.fc with silenceTimer := some (afterMs t 500) }).setCsto
    { s.csto with fixtureEnable := fxs }

/-- RESET_RELEASE: it ends a held reset, and nothing else. -/
def execResetRelease (t : Nat) (fxs : Bool) (s : State) : Host.Outcome State Fault Refusal :=
  .next (if s.pins.resetHeld then release t fxs s else s)

/-! ### The end of loading -/

/-- TMON takes the thresholds, and tests them where TFAULT is clear (R11). -/
def Tmon.load (m : Tmon) (p : Params) : Tmon := if m.tfault then m else m.test p

/-- The sequencer starts work (R34, R45): DUE, or on an UNCAL tile IDLE for good with SETTLING clear. -/
def Sseq.load (q : Sseq) (p : Params) (tfault : Bool) : Sseq :=
  if p.uncal then { q with st := .idle, settling := false }
  else { q with st := .due, chan := .r, fails := Rgb.all 0, settleRounds := 0,
                settleCount := if tfault then q.settleCount else some 0 }

/-- Station identity enters LISTEN with the timer at 0 (R91). -/
def listenStart (s : State) : State := changeIdentity .listen (s.setSid { s.sid with listen := some 0 })

/-- Every G_c becomes 16 × h and the set goes to the driver port (R140, R146). -/
def gainsStart (p : Params) (s : State) : State :=
  let g := Rgb.all (16 * p.headroom)
  (s.setTge { s.tge with applied := g }).setDrvp (s.drvp.arrive g)

/-- The event unit takes the fault mask and the SET_DEFAULT pulse (R179). -/
def eventsStart (p : Params) (s : State) : State :=
  handEvents (if p.setDefault then evSetDefault else 0) (s.setEvu { s.evu with mask := p.faultMask })

/-- The loaded copy reaches every block in one event (R164). -/
def endOfLoading (p : Params) (s : State) : State :=
  let m := s.tmon.load p
  let s1 := ((((s.setCsto { s.csto with loaded := some p }).setTmon m).setLest (s.lest.thermal p.chars m.tf)).setSseq
    (s.sseq.load p m.tfault))
  settle (eventsStart p (gainsStart p (listenStart s1)))

/-- END_OF_LOADING: it ends a load, and nothing else. -/
def execEndOfLoading (s : State) : Host.Outcome State Fault Refusal :=
  whenLive s (if s.csto.loaded.isNone then endOfLoading (loadParams s.csto.array) s else s)

end Sys2Proof.Machine
end

