-- ==== Sys2Proof/Machine/Dispatch.lean ====
section
/-! DEFINITION. One command's effect: one arm per row of the table. -/

namespace Sys2Proof.Machine

def exec (i : Instr) (s : State) : Host.Outcome State Fault Refusal :=
  match i with
  | .reset => Sys2Proof.Machine.execReset s
  | .resetRelease t fxs => Sys2Proof.Machine.execResetRelease t fxs s
  | .endOfLoading => Sys2Proof.Machine.execEndOfLoading s
  | .fsyncEdge t => Sys2Proof.Machine.execFsyncEdge t s
  | .substituteTick => Sys2Proof.Machine.execSubstituteTick s
  | .pollTimerExpiry => Sys2Proof.Machine.execPollTimerExpiry s
  | .temperatureReadCompletion outcome => Sys2Proof.Machine.execTemperatureReadCompletion outcome s
  | .senseWindowOpen => Sys2Proof.Machine.execSenseWindowOpen s
  | .senseWindowClose => Sys2Proof.Machine.execSenseWindowClose s
  | .countArrival outcome => Sys2Proof.Machine.execCountArrival outcome s
  | .intervalTimerExpiry => Sys2Proof.Machine.execIntervalTimerExpiry s
  | .settleTimeout => Sys2Proof.Machine.execSettleTimeout s
  | .receiverReady => Sys2Proof.Machine.execReceiverReady s
  | .transmitStart sof => Sys2Proof.Machine.execTransmitStart sof s
  | .arbitrationLoss pos pulse => Sys2Proof.Machine.execArbitrationLoss pos pulse s
  | .bitError pos pulse => Sys2Proof.Machine.execBitError pos pulse s
  | .sendSymbolError pos pulse => Sys2Proof.Machine.execSendSymbolError pos pulse s
  | .malformedFrame f => Sys2Proof.Machine.execMalformedFrame f s
  | .ownNoticeComplete => Sys2Proof.Machine.execOwnNoticeComplete s
  | .ownAskComplete => Sys2Proof.Machine.execOwnAskComplete s
  | .ownStakeComplete => Sys2Proof.Machine.execOwnStakeComplete s
  | .ownMusterComplete => Sys2Proof.Machine.execOwnMusterComplete s
  | .noticeReceived src lum flags => Sys2Proof.Machine.execNoticeReceived src lum flags s
  | .musterReceived src start => Sys2Proof.Machine.execMusterReceived src start s
  | .stakeReceived src tgt uid mode => Sys2Proof.Machine.execStakeReceived src tgt uid mode s
  | .capability src tgt => Sys2Proof.Machine.execCapability src tgt s
  | .status src tgt => Sys2Proof.Machine.execStatus src tgt s
  | .statusClear src tgt => Sys2Proof.Machine.execStatusClear src tgt s
  | .identity src tgt => Sys2Proof.Machine.execIdentity src tgt s
  | .gains src tgt => Sys2Proof.Machine.execGains src tgt s
  | .targets src tgt => Sys2Proof.Machine.execTargets src tgt s
  | .storeState src tgt => Sys2Proof.Machine.execStoreState src tgt s
  | .page src tgt page => Sys2Proof.Machine.execPage src tgt page s
  | .unknownSelector src tgt selector => Sys2Proof.Machine.execUnknownSelector src tgt selector s
  | .arm src tgt rest => Sys2Proof.Machine.execArm src tgt rest s
  | .disarm src tgt rest => Sys2Proof.Machine.execDisarm src tgt rest s
  | .burn src tgt args => Sys2Proof.Machine.execBurn src tgt args s
  | .lock src tgt args => Sys2Proof.Machine.execLock src tgt args s
  | .unknownCommand src tgt code rest => Sys2Proof.Machine.execUnknownCommand src tgt code rest s
  | .contestByteReceived value => Sys2Proof.Machine.execContestByteReceived value s
  | .musterByteReceived value => Sys2Proof.Machine.execMusterByteReceived value s
  | .answerBlockReceived block => Sys2Proof.Machine.execAnswerBlockReceived block s
  | .fixtureStatusByteReceived value => Sys2Proof.Machine.execFixtureStatusByteReceived value s
  | .replyBlockError e => Sys2Proof.Machine.execReplyBlockError e s
  | .ownReplyComplete => Sys2Proof.Machine.execOwnReplyComplete s
  | .frameEof => Sys2Proof.Machine.execFrameEof s
  | .reportTimerDue => Sys2Proof.Machine.execReportTimerDue s
  | .spacingCountFull => Sys2Proof.Machine.execSpacingCountFull s
  | .listenEnd => Sys2Proof.Machine.execListenEnd s
  | .slotStale => Sys2Proof.Machine.execSlotStale s
  | .slotRemoval => Sys2Proof.Machine.execSlotRemoval s
  | .driverTransferComplete => Sys2Proof.Machine.execDriverTransferComplete s
  | .silenceExpiry => Sys2Proof.Machine.execSilenceExpiry s
  | .detach t onTime => Sys2Proof.Machine.execDetach t onTime s
  | .detachRecovery conducting => Sys2Proof.Machine.execDetachRecovery conducting s
  | .detachHistoryClear => Sys2Proof.Machine.execDetachHistoryClear s
  | .busStuckSet dominant => Sys2Proof.Machine.execBusStuckSet dominant s
  | .busStuckClear => Sys2Proof.Machine.execBusStuckClear s
  | .burnByteComplete missed => Sys2Proof.Machine.execBurnByteComplete missed s
  | .lockComplete => Sys2Proof.Machine.execLockComplete s
  | .startOfFrame t pulse => Sys2Proof.Machine.execStartOfFrame t pulse s

end Sys2Proof.Machine
end

