-- ==== Sys2Proof/Safety.lean ====
section
/-! DEFINITION. The terms that claims use: what an event leaves unchanged, and the invariants that every step keeps. A safe run
is one whose every state meets them. -/

namespace Sys2Proof.Machine

/-! ### Frames -/

/-- The parts of `State`: the twelve blocks, with the controller's and confinement's apart, the pins, the queue. -/
inductive Block where
  | pins | ftb | tmon | lsb | lest | sseq | slc | fc | sid | ptab | tge | drvp | csto | evu | freeReads | pending
  deriving DecidableEq, Repr

/-- A part of the state is the same in both. -/
def SameBlock (s t : State) : Block → Prop
  | .pins => t.pins = s.pins
  | .ftb => t.ftb = s.ftb
  | .tmon => t.tmon = s.tmon
  | .lsb => t.lsb = s.lsb
  | .lest => t.lest = s.lest
  | .sseq => t.sseq = s.sseq
  | .slc => t.slc = s.slc
  | .fc => t.fc = s.fc
  | .sid => t.sid = s.sid
  | .ptab => t.ptab = s.ptab
  | .tge => t.tge = s.tge
  | .drvp => t.drvp = s.drvp
  | .csto => t.csto = s.csto
  | .evu => t.evu = s.evu
  | .freeReads => t.freeReads = s.freeReads
  | .pending => t.pending = s.pending

/-- Every part but those listed is the same in both. -/
def OnlyChanges (touched : List Block) (s t : State) : Prop := ∀ b, b ∉ touched → SameBlock s t b

/-- The reset line is not held. -/
def State.live (s : State) : Prop := s.pins.resetHeld = false

/-! ### Ranges -/

/-- Every channel's value lies in `lo..hi`. -/
def rgbWithin (lo hi : Nat) (v : Rgb Nat) : Prop :=
  (lo ≤ v.r ∧ v.r ≤ hi) ∧ (lo ≤ v.g ∧ v.g ≤ hi) ∧ (lo ≤ v.b ∧ v.b ≤ hi)

/-- A loaded channel block is in the ranges of R162. -/
def CharChannel.inRange (c : CharChannel) : Prop :=
  256 ≤ c.lRef ∧ c.sRef ≠ 0 ∧ c.curve.length = 9 ∧ ∀ p ∈ c.curve, 16384 ≤ p ∧ p ≤ 40960

/-- The loaded settings are in the ranges of R163, its two relations included. -/
def Params.settingsInRange (p : Params) : Prop :=
  (8 ≤ p.period ∧ p.period ≤ 255) ∧ (2 ≤ p.staleLimit ∧ p.staleLimit ≤ 15) ∧ (3 ≤ p.goneLimit ∧ p.goneLimit ≤ 60) ∧
  p.headroomLoss ≤ 64 ∧ (128 ≤ p.floorRatio ∧ p.floorRatio ≤ 240) ∧ (128 ≤ p.gainFloor ∧ p.gainFloor ≤ 255) ∧
  (1 ≤ p.slewStep ∧ p.slewStep ≤ 64) ∧ (40 ≤ p.tHot ∧ p.tHot ≤ 70) ∧ (60 ≤ p.tCrit ∧ p.tCrit ≤ 90) ∧
  (1 ≤ p.settleLimit ∧ p.settleLimit ≤ 15) ∧ (1 ≤ p.senseInterval ∧ p.senseInterval ≤ 255) ∧
  p.staleLimit < p.goneLimit ∧ p.tHot + 5 ≤ p.tCrit

/-- A loaded copy is in the ranges of R162 and R163. -/
def Params.inRange (p : Params) : Prop :=
  p.settingsInRange ∧ p.chars.r.inRange ∧ p.chars.g.inRange ∧ p.chars.b.inRange

/-- The loaded copy, where there is one, is in range. -/
def State.paramsInRange (s : State) : Prop := ∀ p, s.csto.loaded = some p → p.inRange

/-! ### Invariants -/

/-- The array is canonical, and a burn in progress stays inside bytes 0..126 and off locked sections (R160, R167); a LOCK
carries marks of bits 0..2 and the value of byte 127 at its acceptance (R169). -/
def StoreInv (s : State) : Prop :=
  s.csto.array.wf = true ∧
    match s.csto.burn with
    | none => True
    | some (.bytes off data i) =>
      i < data.length ∧ off + data.length ≤ 127 ∧
        ∀ k, k < data.length → lockedByte (s.csto.array.read 127) (off + k) = false
    | some (.lock marks before) => marks &&& 0xF8 = 0 ∧ before = s.csto.array.read 127

/-- The fault line follows the latched and masked entries (R175). -/
def FaultLineInv (s : State) : Prop := s.evu.faultLine = true ↔ ∃ k < 16, s.evu.latched.getLsbD k ∧ s.evu.mask.getLsbD k

/-- The raw set shows the conditions as their owners hold them (R173). -/
def RawSetInv (s : State) : Prop := s.evu.raw = s.conditions

/-- The own-flags set shows the flags as their owners hold them (R26). -/
def OwnFlagsInv (s : State) : Prop := s.lest.ownFlags = s.flags

/-- Every contribution at the engine is the slot's: triple and flags of a FRESH slot, nothing else (R118). -/
def ContributionsFollow (u : State) : Prop :=
  ∀ a : Addr, u.tge.peers.get a = (match u.ptab.slots.get a with
    | .fresh lum flags _ _ => some ⟨lum, flags⟩
    | _ => none)

/-- The engine's inputs are as their owners hold them: estimates and own flags, the direct CRIT, the contributions (R118, R126). -/
def EngineTold (u : State) : Prop :=
  ∀ l, u.lest.l = some l → u.tge.own = some ⟨l, u.lest.ownFlags⟩ ∧ u.tge.crit = u.tmon.crit ∧ ContributionsFollow u

/-- Before the end of loading the engine holds no own entry (R126, R146). From then on its inputs are as their owners hold them,
and its medians, targets, marks, gains, set size and two flags are those that a recompute from these inputs gives (R127). -/
def EngineInv (s : State) : Prop :=
  (s.csto.loaded = none → s.tge.own = none) ∧
    ∀ p, s.csto.loaded = some p → s.lest.l.isSome ∧ EngineTold s ∧ s.tge.recompute p = s.tge

/-- TEC and REC stay in 0..255 (R148), and the driver cut is open exactly in DETACHED, latched or not (R154, R155). -/
def CountsInv (s : State) : Prop :=
  s.fc.tec ≤ 255 ∧ s.fc.recCount ≤ 255 ∧ (s.fc.cut = true ↔ s.fc.link.isDetached = true)

/-- LOAD is the state before the copy is loaded; an own address is held exactly in RUN, and its slot is the one SELF slot
(R91, R102). -/
def AddressInv (s : State) : Prop :=
  (s.sid.st = .load ↔ s.csto.loaded = none) ∧ (s.sid.own.isSome ↔ s.sid.st = .run) ∧
    ∀ a : Addr, s.ptab.slots.get a = .self ↔ s.sid.own = some a

/-- What is being sent is a STAKE in CLAIMING, or anything in RUN, with the link ACTIVE (R71). -/
def SendAllowed (s : State) : Prop :=
  ∀ x, s.slc.tx = some x →
    s.fc.link = .active ∧
      (s.sid.st = .run ∨ s.sid.st = .claiming ∧ ∃ uid mode src tgt, x = .main ⟨src, tgt, .stake uid mode⟩)

/-- `SendAllowed`, with what it rests on: LOAD is the state before loading; the driver is released while nothing is being sent
(R49); a main part is sent in MAIN, its SOF from READY on (R52), and a reply in WINDOW; a muster reply waits in RUN and ACTIVE
only; under BUS_STUCK the receiver is in HUNT (R157). -/
def SendInv (s : State) : Prop :=
  SendAllowed s ∧ (s.sid.st = .load ↔ s.csto.loaded = none) ∧
    (s.slc.tx = none → s.slc.driver = .released ∧ s.slc.txPos = 0) ∧
    (s.slc.sendingMain = true → s.slc.phase = .main ∨ s.slc.phase = .ready ∧ s.slc.txPos = 0) ∧
    (s.slc.sendingReply = true → s.slc.phase = .window) ∧
    (s.slc.musterReply = .waiting → s.sid.st = .run ∧ s.fc.link = .active) ∧
    (s.fc.busStuck = true → s.slc.phase = .hunt)

/-- A peer slot's heard age is at most its data age (R112), its ask tries at most 3 (R122). -/
def PeerSlot.agesOk : PeerSlot → Prop
  | .heard _ tries => tries ≤ 3
  | .fresh _ _ d h | .stale _ _ d h => h ≤ d
  | .empty | .self => True

/-- Every slot's ages are in order. -/
def AgesInv (s : State) : Prop := ∀ a : Addr, (s.ptab.slots.get a).agesOk

/-- What is pending in a slot once a withdrawn frame on the line has ended (R73). -/
def OutSlot.next {α : Type} (sl : OutSlot α) : Option α := if sl.withdrawn then sl.held else sl.content

/-- The ASK slot stands as the peer table has it: identity and link state are held as handed over (R120); a withdrawn frame is on
the line, and only then a content is held (R73); what is pending asks the ASK target (R121), which, with no outcome awaited, is
in RUN and ACTIVE the lowest address whose slot is HEARD with ask tries below 3, and none otherwise (R120). -/
def AskInv (s : State) : Prop :=
  s.ptab.heldId = s.sid.st ∧ s.ptab.heldLink = s.fc.link ∧
    (s.slc.ask.withdrawn = true → s.slc.onLine .ask = true ∧ s.slc.ask.content.isSome) ∧
    (s.slc.ask.held.isSome → s.slc.ask.withdrawn = true) ∧
    s.slc.ask.next = s.ptab.askTarget.map (fun a => ⟨a, 0x00⟩) ∧
    (s.ptab.awaited = false →
      if s.sid.st = .run ∧ s.fc.link = .active then
        (match s.ptab.askTarget with
         | some c => ∃ h tries, s.ptab.slots.get c = .heard h tries ∧ tries < 3
         | none => True) ∧
        ∀ b : Addr, (∀ c, s.ptab.askTarget = some c → b < c) → ∀ h tries, s.ptab.slots.get b = .heard h tries → 3 ≤ tries
      else s.ptab.askTarget = none)

/-- T_f stays in −640..2000 (R8), CRIT is never set while HOT is clear (R11), the runs stay below their limits (R9, R10). -/
def TemperatureInv (s : State) : Prop :=
  s.paramsInRange ∧ (-640 ≤ s.tmon.tf ∧ s.tmon.tf ≤ 2000) ∧ (s.tmon.crit = true → s.tmon.hot = true) ∧
    s.tmon.failRun ≤ 9 ∧ s.tmon.validRun ≤ 4

/-- The aging factors lie in 16384..34816 (R22), the thermal factors in 16384..40960 (R19), the estimates in 64..65535
(R23). -/
def EstimateInv (s : State) : Prop :=
  s.paramsInRange ∧ rgbWithin 16384 34816 s.lest.a ∧ (∀ f, s.lest.f = some f → rgbWithin 16384 40960 f) ∧
    ∀ l, s.lest.l = some l → rgbWithin 64 65535 l

/-- Every applied and every ceilinged gain lies in 2048..4096 (R138). -/
def GainInv (s : State) : Prop :=
  s.paramsInRange ∧ rgbWithin 2048 4096 s.tge.applied ∧ ∀ g, s.tge.ceiled = some g → rgbWithin 2048 4096 g

/-- The sense drive lights the current channel in ARMED and WAIT, and nothing otherwise (R35, R47); no round runs before
loading ends (R34). -/
def SenseDriveInv (s : State) : Prop :=
  (s.csto.loaded = none → s.sseq.st = .idle) ∧
    s.sseq.drive = (if s.sseq.st = .armed ∨ s.sseq.st = .wait then some s.sseq.chan else none)

/-! ### Terms of the statements about one command -/

/-- A slew step of R137: within `step` of the goal the gain takes it, and otherwise it moves by `step` toward it. -/
def SlewsTo (step goal g g' : Nat) : Prop :=
  if ((goal : Int) - (g : Int)).natAbs ≤ step then g' = goal else if g < goal then g' = g + step else g' + step = g

/-- The gains after a tick (R137): each channel by its own difference, eight steps at a time when falling under CRIT. -/
def SlewsBy (p : Params) (crit : Bool) (goal g g' : Rgb Nat) : Prop :=
  ∀ c : Channel, SlewsTo (if crit = true ∧ goal.get c < g.get c then 8 * p.slewStep else p.slewStep) (goal.get c) (g.get c)
    (g'.get c)

/-- A slot after a tick: its ages raised by 1 up to the removal point, and R113's tests made on the aged values (R112). -/
def PeerSlot.ticked (p : Params) : PeerSlot → PeerSlot
  | .heard h tries =>
    let h' := min (h + 1) (p.goneLimit * p.period)
    if p.goneLimit * p.period ≤ h' then .empty else .heard h' tries
  | .fresh lum flags d h =>
    let d' := min (d + 1) (p.goneLimit * p.period)
    let h' := min (h + 1) (p.goneLimit * p.period)
    if p.staleLimit * p.period ≤ d' then .stale lum flags d' h' else .fresh lum flags d' h'
  | .stale lum flags d h =>
    let h' := min (h + 1) (p.goneLimit * p.period)
    if p.goneLimit * p.period ≤ h' then .empty else .stale lum flags (min (d + 1) (p.goneLimit * p.period)) h'
  | .empty => .empty
  | .self => .self

/-- The engine has taken the event: it holds its inputs as their owners hold them (R126), and its results are those of a
recompute from them, where they were so before (R127). -/
def EngineWorks (p : Params) (s u : State) : Prop :=
  EngineTold u ∧ (s.tge.recompute p = s.tge → u.tge.recompute p = u.tge)

/-- The applied gains after a tick's slew toward the ceilinged gains of the engine `e` (R137). -/
def SlewsToward (p : Params) (e : Tge) (s u : State) : Prop :=
  match e.ceiled with
  | none => u.tge.applied = s.tge.applied
  | some goal => SlewsBy p s.tge.crit goal s.tge.applied u.tge.applied

/-- The slew of a tick in either order that R139 allows: toward the gains as they stood, or, where the tick has changed a
contribution, toward those of the recompute that this change brings (free: log 33). -/
def TickSlews (p : Params) (s u : State) : Prop :=
  SlewsToward p s.tge s u ∨
    { s.tge with peers := u.ptab.contributions } ≠ s.tge ∧
      SlewsToward p (({ s.tge with peers := u.ptab.contributions } : Tge).recompute p) s u

/-- A claim has been started from the seed: attempts 0, and in ACTIVE the first EMPTY slot from there is staked, or there is none;
outside ACTIVE the choice waits in CLAIMING with the seed as search start, over all 48, and the STAKE slot empty (R92 to R94,
R105). -/
def ClaimsFromSeed (s u : State) : Prop :=
  u.sid.attempts = 0 ∧ u.sid.listen = none ∧
    (s.fc.link = .active →
      (∀ k : Nat, k < 48 → u.ptab.slots.get (addrAfter (seedOf s.sid.uid) k) = .empty →
        (∀ j, j < k → u.ptab.slots.get (addrAfter (seedOf s.sid.uid) j) ≠ .empty) →
        u.sid.st = .claiming ∧ u.sid.candidate = some (addrAfter (seedOf s.sid.uid) k) ∧
          u.slc.stake.content = some ⟨addrAfter (seedOf s.sid.uid) k, .fresh, s.sid.uid⟩) ∧
      ((∀ a : Addr, u.ptab.slots.get a ≠ .empty) → u.sid.st = .unaddressed ∧ u.sid.candidate = none)) ∧
    (s.fc.link ≠ .active →
      u.sid.st = .claiming ∧ u.sid.candidate = none ∧ u.sid.search = some (seedOf s.sid.uid, true) ∧
        u.slc.stake.content = none)

/-- The evaluation of the significant-change test has been made (R30), with the signalling as in `l` before it: where the own
triple or the own flags have changed and the test holds, an early request is handed; otherwise, and before loading ends, none
is. That one evaluation sees all that the command has changed, a BELOWFLOOR that has come back included, is DEDUCED (log 13). -/
def Evaluated (l : Slc) (s u : State) : Prop :=
  (s.csto.loaded = none → u.slc.notice = l.notice ∧ u.slc.deferred = l.deferred) ∧
    ∀ lum, s.csto.loaded.isSome → s.lest.l = some lum → s.tge.own = some ⟨lum, s.lest.ownFlags⟩ →
      if (u.lest.l ≠ s.lest.l ∨ u.lest.ownFlags ≠ s.lest.ownFlags) ∧ u.lest.significant = true then
        u.slc.notice = (earlyRequest s.sid.st l).notice ∧ u.slc.deferred = (earlyRequest s.sid.st l).deferred
      else u.slc.notice = l.notice ∧ u.slc.deferred = l.deferred

/-- The event moves nothing of the signalling but by that evaluation. -/
def EvaluatedAlone (s u : State) : Prop :=
  Evaluated s.slc s u ∧ u.slc = { s.slc with notice := u.slc.notice, deferred := u.slc.deferred }

/-- A tick has reached its five blocks (R4): slots aged and tested in the same event (R112, R113), in UNADDRESSED a slot so
emptied starting a claim, whose choice waits outside ACTIVE, or its hand-off on its way (R93, R105, R114, R119; free: log 37), and one
on its way before starting it;
gains slewed in either order (R139; free: log 33) and handed on when they changed (R137, R140), and the engine given its inputs
as they then stand (R118, R126, R127); the sequencer's two counts, which stand at their limits until their own events
(R43, R45; logs 3, 29), report timer and spacing count (R75, R76), listen timer (R92; logs 3, 29); and one evaluation of the
significant-change test after all of it (R30; DEDUCED: log 13). -/
def TickReached (p : Params) (s u : State) : Prop :=
  (∀ a : Addr, u.ptab.slots.get a = (s.ptab.slots.get a).ticked p) ∧
  (s.sid.st = .unaddressed → s.slc.stake = .empty →
    (s.sid.emptied = true → ClaimsFromSeed s u) ∧
    (s.sid.emptied = false →
      ((∃ a : Addr, (s.ptab.slots.get a).ticked p = .empty ∧ s.ptab.slots.get a ≠ .empty) →
        ClaimsFromSeed s u ∨ u.sid = { s.sid with emptied := true }) ∧
      ((∀ a : Addr, (s.ptab.slots.get a).ticked p = .empty → s.ptab.slots.get a = .empty) → u.sid = s.sid))) ∧
  EngineWorks p s u ∧ TickSlews p s u ∧
  u.drvp = (if u.tge.applied = s.tge.applied then s.drvp else s.drvp.arrive u.tge.applied) ∧
  u.sseq.interval = s.sseq.interval.map (fun n => min (n + 1) (p.senseInterval * 256)) ∧
  u.sseq.settleCount =
    (if s.sseq.settling then s.sseq.settleCount.map (fun n => min (n + 1) (4 * p.senseInterval * 256))
     else s.sseq.settleCount) ∧
  u.slc.reportTimer = (if s.sid.st = .run then s.slc.reportTimer.map (fun n => n - 1) else s.slc.reportTimer) ∧
  u.slc.spacing = min 4 (s.slc.spacing + 1) ∧ Evaluated { s.slc with spacing := min 4 (s.slc.spacing + 1) } s u ∧
  (s.sid.st ≠ .unaddressed → u.sid = { s.sid with
    listen := if s.sid.st = .listen then s.sid.listen.map (fun n => min (n + 1) (2 * p.period)) else s.sid.listen })

/-- A failure of the current channel has been counted (R39), the drive being off and the interval timer starting at an
abandonment. -/
def FailureCounted (q q' : Sseq) : Prop :=
  q'.drive = none ∧
  if q.fails.get q.chan + 1 < 3 then
    q'.st = .due ∧ q'.chan = q.chan ∧ q'.fails = q.fails.set q.chan (q.fails.get q.chan + 1) ∧
      q'.senseFault = q.senseFault ∧ q'.settling = q.settling
  else
    q'.st = .idle ∧ q'.chan = .r ∧ q'.fails = ⟨0, 0, 0⟩ ∧ q'.senseFault = true ∧ q'.interval = some 0 ∧ q'.settling = false

/-- HOT and CRIT as one test leaves them (R11). -/
def TestedAs (p : Params) (m m' : Tmon) : Prop :=
  (m'.hot = true ↔ 16 * (p.tHot : Int) ≤ m'.tf ∨ m.hot = true ∧ 16 * ((p.tHot : Int) - 3) ≤ m'.tf) ∧
  (m'.crit = true ↔ 16 * (p.tCrit : Int) ≤ m'.tf ∨ m.crit = true ∧ 16 * ((p.tCrit : Int) - 5) ≤ m'.tf)

/-- An operation has ended and the arbiter has started the next: the waiting count before the waiting read (R15). -/
def ArbiterGoesOn (s u : State) : Prop :=
  u.lsb = if s.lsb.sseqWaiting then { inFlight := some .count, tmonWaiting := s.lsb.tmonWaiting, sseqWaiting := false }
          else { inFlight := if s.lsb.tmonWaiting then some .temperature else none, tmonWaiting := false, sseqWaiting := false }

/-- The sequencer's state after that: from ARMED to WAIT where its waiting count has started (R36). -/
def stateAfterBus (s : State) : SeqState := if s.lsb.sseqWaiting ∧ s.sseq.st = .armed then .wait else s.sseq.st

/-- The sequencer after a temperature read (R36, R45, R46): it holds T_f and TFAULT, the settle timeout count starts at the first
clearing of TFAULT after loading with SETTLING still set, its waiting count may start, and nothing else of it changes. -/
def SequencerTold (s u : State) : Prop :=
  u.sseq = { s.sseq with
    st := stateAfterBus s, heldTf := u.tmon.tf, heldTfault := u.tmon.tfault
    settleCount := if s.sseq.heldTfault = true ∧ u.tmon.tfault = false ∧ s.sseq.settling = true ∧
                        s.sseq.settleCount = none ∧ s.csto.loaded.isSome then some 0 else s.sseq.settleCount }

/-- The CHAR section of the array passes every check of R162. -/
def CharSectionValid (m : Memory) : Prop :=
  m.readMany 0 4 = [0x45, 0x54, 0x34, 0x36] ∧ m.read 4 = 0x01 ∧ m.read 5 = 80 ∧
    (∀ a ∈ [6, 7, 74, 75, 76, 77], m.read a = 0) ∧ m.word 78 = (crc16 (m.readMany 0 78)).toNat ∧
    ∀ base ∈ [8, 30, 52], 256 ≤ m.word base ∧ m.word (base + 2) ≠ 0 ∧ m.word (base + 10) = 32768 ∧
      ∀ i < 9, 16384 ≤ m.word (base + 4 + 2 * i) ∧ m.word (base + 4 + 2 * i) ≤ 40960

/-- The SET section of the array has its version and its CRC (R163). -/
def SetSectionValid (m : Memory) : Prop := m.read 93 = 0x01 ∧ m.word 94 = (crc16 (m.readMany 80 14)).toNat

/-- The channel block that stands at byte `base` (R162). -/
def HoldsBlock (m : Memory) (base : Nat) (c : CharChannel) : Prop :=
  c.lRef = m.word base ∧ c.sRef = m.word (base + 2) ∧ c.curve.length = 9 ∧
    ∀ i < 9, c.curve[i]? = some (m.word (base + 4 + 2 * i))

/-- A setting is the byte at `a`, lowered or raised into its range (R163). -/
def ClampedByte (m : Memory) (a lo hi x : Nat) : Prop := x = max lo (min hi (m.read a).toNat)

/-- The settings that a valid SET section gives (R163): each field clamped, then the two relations in their order. -/
def SettingsStored (m : Memory) (p : Params) : Prop :=
  ClampedByte m 80 8 255 p.period ∧ ClampedByte m 81 2 15 p.staleLimit ∧
    (∃ g, ClampedByte m 82 3 60 g ∧ p.goneLimit = if g ≤ p.staleLimit then p.staleLimit + 1 else g) ∧
    ClampedByte m 83 0 64 p.headroomLoss ∧ ClampedByte m 84 128 240 p.floorRatio ∧ ClampedByte m 85 128 255 p.gainFloor ∧
    ClampedByte m 86 1 64 p.slewStep ∧ ClampedByte m 87 40 70 p.tHot ∧
    (∃ t, ClampedByte m 88 60 90 t ∧ p.tCrit = if t < p.tHot + 5 then p.tHot + 5 else t) ∧
    ClampedByte m 89 1 15 p.settleLimit ∧ ClampedByte m 90 1 255 p.senseInterval ∧
    p.faultMask = m.read 91 ++ m.read 92

/-- The default settings (R163). -/
def SettingsDefault (p : Params) : Prop :=
  p.period = 30 ∧ p.staleLimit = 4 ∧ p.goneLimit = 12 ∧ p.headroomLoss = 16 ∧ p.floorRatio = 179 ∧ p.gainFloor = 160 ∧
    p.slewStep = 4 ∧ p.tHot = 55 ∧ p.tCrit = 75 ∧ p.settleLimit = 3 ∧ p.senseInterval = 14 ∧ p.faultMask = 0xFFFF

/-- The main part that a command brings in (R59, R84, R165); none for a command that brings none. -/
def mainPart : Instr → Option Frame
  | .noticeReceived src lum flags => some ⟨src, 62, .notice lum flags⟩
  | .musterReceived src start => some ⟨src, 62, .muster start⟩
  | .stakeReceived src tgt uid mode => some ⟨src, tgt, .stake uid mode⟩
  | .capability src tgt => some ⟨src, tgt, .ask 0x00⟩
  | .status src tgt => some ⟨src, tgt, .ask 0x01⟩
  | .statusClear src tgt => some ⟨src, tgt, .ask 0x02⟩
  | .identity src tgt => some ⟨src, tgt, .ask 0x03⟩
  | .gains src tgt => some ⟨src, tgt, .ask 0x04⟩
  | .targets src tgt => some ⟨src, tgt, .ask 0x05⟩
  | .storeState src tgt => some ⟨src, tgt, .ask 0x06⟩
  | .page src tgt page => some ⟨src, tgt, .ask (0x80 + page.setWidth 8)⟩
  | .unknownSelector src tgt selector => some ⟨src, tgt, .ask selector⟩
  | .arm src tgt rest => some ⟨src, tgt, .fixture (0x01 :: rest)⟩
  | .disarm src tgt rest => some ⟨src, tgt, .fixture (0x04 :: rest)⟩
  | .burn src tgt args => some ⟨src, tgt, .fixture (0x02 :: args)⟩
  | .lock src tgt args => some ⟨src, tgt, .fixture (0x03 :: args)⟩
  | .unknownCommand src tgt code rest => some ⟨src, tgt, .fixture (code :: rest)⟩
  | .reset | .resetRelease _ _ | .endOfLoading | .fsyncEdge _ | .substituteTick | .pollTimerExpiry
  | .temperatureReadCompletion _ | .senseWindowOpen | .senseWindowClose | .countArrival _ | .intervalTimerExpiry
  | .settleTimeout | .receiverReady | .transmitStart _ | .arbitrationLoss _ _ | .bitError _ _ | .sendSymbolError _ _
  | .malformedFrame _ | .ownNoticeComplete | .ownAskComplete | .ownStakeComplete | .ownMusterComplete
  | .contestByteReceived _ | .musterByteReceived _ | .answerBlockReceived _ | .fixtureStatusByteReceived _
  | .replyBlockError _ | .ownReplyComplete | .frameEof | .reportTimerDue | .spacingCountFull | .listenEnd | .slotStale
  | .slotRemoval | .driverTransferComplete | .silenceExpiry | .detach _ _ | .detachRecovery _ | .detachHistoryClear
  | .busStuckSet _ | .busStuckClear | .burnByteComplete _ | .lockComplete | .startOfFrame _ _ => none

/-- REC has fallen by 1 at a valid main part of another station's (R148); in QUIET alone TEC has too, and below 96 the station is
ACTIVE again (R147, R150). -/
def CountsFall (s u : State) : Prop :=
  u.fc = { s.fc with
    recCount := s.fc.recCount - 1
    tec := if s.fc.link = .quiet then s.fc.tec - 1 else s.fc.tec
    link := if s.fc.link = .quiet ∧ s.fc.tec - 1 < 96 then .active else s.fc.link }

/-- What is sent is a main part of kind `k`. -/
def Sending.carries (k : Kind) : Sending → Bool
  | .main f => f.body.kind = k
  | .contest _ | .status _ | .muster _ | .answer _ _ => false

/-- The slot of kind `k` after what was sent ended without completing (R72, R73): a withdrawn frame gives way to the held
content, and every other slot stays. -/
def SlotEnded {α : Type} (k : Kind) (x : Sending) (sl sl' : OutSlot α) : Prop :=
  sl' = if x.carries k && sl.withdrawn then ⟨sl.held, false, none⟩ else sl

/-- The holder of `o` yields to this main part at its EOB: a HELD STAKE for its address, from a lower UID, in ACTIVE (R99). -/
def YieldsTo (s : State) (o : Addr) (f : Frame) : Prop :=
  s.fc.link = .active ∧ f.tgt = addrByte o ∧ ∃ uid, f.body = .stake uid 1 ∧ uid.toNat < s.sid.uid.toNat

/-- Identity after the main part of source `src` at the holder of `o`, the duplicate test apart unchanged (R103). -/
def TestedForDuplicate (src : Byte) (o : Addr) (s u : State) : Prop :=
  u.sid = if src = addrByte o then { s.sid with reassert := true } else s.sid

/-- A main part of another station's is in reception, out of reset (R55). -/
def State.receiving (s : State) : Prop := s.live ∧ s.slc.phase = .main ∧ s.slc.sendingMain = false

/-- A candidate choice has been made from `start` over the table as it then stands (R93, R94, R105). -/
def ChoiceMade (start : Addr) (all : Bool) (s u : State) : Prop :=
  (∀ n, u.ptab.firstFree start all = some n →
    u.sid = { s.sid with candidate := some n, search := none } ∧
      (s.slc.stake = .empty → u.slc.stake = ⟨some ⟨n, .fresh, s.sid.uid⟩, false, none⟩)) ∧
  (u.ptab.firstFree start all = none →
    u.sid = { s.sid with st := .unaddressed, candidate := none, search := none } ∧
      (s.slc.stake = .empty → u.slc.stake = .empty))

/-- A claimant's choice that has waited for ACTIVE, and for no EOF, has been made from its kept start (R93, R99). -/
def WaitingChoiceMade (s u : State) : Prop :=
  ∀ start all, s.sid.st = .claiming → s.sid.candidate = none → s.sid.search = some (start, all) → s.sid.decision ≠ .yielding →
    ChoiceMade start all s u

/-- The choice after a yield of `a` (R93, R99, R101): in ACTIVE it has been made from `a + 1` over the 47 others, with the STAKE
filled or UNADDRESSED entered; outside ACTIVE it waits in CLAIMING, with that start kept. -/
def ChoosesAfterYield (a : Addr) (s u : State) : Prop :=
  (s.fc.link = .active →
    (∀ n, u.ptab.firstFree (addrAfter a 1) false = some n →
      u.sid.st = .claiming ∧ u.sid.candidate = some n ∧ u.sid.search = none ∧
        (s.slc.stake = .empty → u.slc.stake = ⟨some ⟨n, .fresh, s.sid.uid⟩, false, none⟩)) ∧
    (u.ptab.firstFree (addrAfter a 1) false = none →
      u.sid.st = .unaddressed ∧ u.sid.candidate = none ∧ u.sid.search = none ∧
        (s.slc.stake = .empty → u.slc.stake = .empty))) ∧
  (s.fc.link ≠ .active →
    u.sid.st = .claiming ∧ u.sid.candidate = none ∧ u.sid.search = some (addrAfter a 1, false) ∧
      (s.slc.stake = .empty → u.slc.stake = .empty))

/-- The peer slots and the outcome awaited are as they were. -/
def SlotsKept (s u : State) : Prop := u.ptab.slots = s.ptab.slots ∧ u.ptab.awaited = s.ptab.awaited

/-- The link state has returned to ACTIVE (R74, R93, R120, R151): a waiting choice is made, and identity and STAKE slot stay
where none waits; the ASK slot is the peer table's, and nothing else moves. -/
def ReturnedToActive (s u : State) : Prop :=
  SlotsKept s u ∧ u.ptab.heldLink = .active ∧ u.slc = { s.slc with ask := u.slc.ask, stake := u.slc.stake } ∧
    WaitingChoiceMade s u ∧
    (s.sid.st ≠ .claiming ∨ s.sid.candidate.isSome ∨ s.sid.search = none ∨ s.sid.decision = .yielding →
      u.sid = s.sid ∧ u.slc.stake = s.slc.stake)

/-- What an own frame's end without completion leaves of the slots other than the ASK slot (R72 to R74): their contents, but for
a withdrawn frame on the line. -/
def SlotsKeepContent (l l' : Slc) : Prop :=
  (l.tx = none → l'.stake = l.stake ∧ l'.notice = l.notice ∧ l'.muster = l.muster) ∧
    ∀ x, l.tx = some x →
      SlotEnded .stake x l.stake l'.stake ∧ SlotEnded .notice x l.notice l'.notice ∧ SlotEnded .muster x l.muster l'.muster

/-- The link state has become DETACHED (R74, R152, R154): identity and the peer slots stay; a transmission is cut off with the
slots' contents kept, and the ASK slot is the peer table's. -/
def CutOffTheLine (s u : State) : Prop :=
  u.sid = s.sid ∧ SlotsKept s u ∧
    (s.fc.link ≠ .active → u.slc = { s.slc with ask := u.slc.ask }) ∧
    (s.fc.link = .active →
      u.slc.tx = none ∧ u.slc.musterReply ≠ .waiting ∧ SlotsKeepContent s.slc u.slc ∧
      (s.slc.tx.isSome → u.slc.driver = .released ∧ u.slc.mark = .stopped) ∧
      u.slc = { s.slc with
        driver := u.slc.driver, tx := none, txPos := u.slc.txPos, mark := u.slc.mark, musterReply := u.slc.musterReply
        stake := u.slc.stake, ask := u.slc.ask, notice := u.slc.notice, muster := u.slc.muster })

/-- A main part of source `src` draws no reply here: nothing is sent or captured, no arisal mark is cleared, the counts fall, and
the duplicate test is made in RUN alone (R71, R74, R83, R103); a return to ACTIVE makes the waiting choice (R93, R150). -/
def DrawsNoReply (src : Byte) (s u : State) : Prop :=
  u.slc.tx = s.slc.tx ∧ u.slc.capture = s.slc.capture ∧ u.slc.musterReply = s.slc.musterReply ∧ CountsFall s u ∧
    u.evu.marks &&& s.evu.marks = s.evu.marks ∧
    (s.sid.st ≠ .run → s.sid.search = none ∨ u.fc.link = s.fc.link → u.sid = s.sid) ∧
    (u.fc.link ≠ s.fc.link → WaitingChoiceMade s u) ∧
    (∀ o, s.sid.st = .run → s.sid.own = some o → TestedForDuplicate src o s u) ∧ OnlyChanges [.slc, .fc, .ptab, .sid, .evu] s u

/-- A main part from address `a` is a sign of life alone (R87, R111): it draws no reply, and no other slot changes. -/
def HeardAlone (a : Addr) (s u : State) : Prop :=
  DrawsNoReply (addrByte a) s u ∧ u.ptab.slots.get a = (s.ptab.slots.get a).life ∧
    ∀ b : Addr, b ≠ a → u.ptab.slots.get b = s.ptab.slots.get b

/-- The station is in RUN and ACTIVE with address `o`, its copy loaded (R71). -/
def State.holder (s : State) (o : Addr) : Prop :=
  s.sid.st = .run ∧ s.sid.own = some o ∧ s.fc.link = .active ∧ s.csto.loaded.isSome

/-- The next reply block of window `w` lies in an allowed position with processing running, and is not this station's
(R65 to R67). -/
def State.awaitsBlock (s : State) (w : Window) : Prop :=
  s.live ∧ s.slc.phase = .window ∧ s.slc.window = some w ∧ w.running = true ∧
    w.seen < w.frame.body.kind.blocksAllowed ∧ s.slc.sendingReply = false

/-- A main part has opened its window (R57), of the station's own frame or another's. -/
def WindowOpened (f : Frame) (own : Bool) (u : State) : Prop :=
  u.slc.phase = .window ∧
    u.slc.window = some { frame := f, own := own, seen := 0, running := true, first := .nothing, answer := none,
                          musterCount := 0, lastMuster := none }

/-- A candidate `c` has been given up and the claim goes on (R96): in ACTIVE the choice from `c + 1` over the 47 others has
staked the slot it found; outside ACTIVE it waits with that start kept and the STAKE withdrawn (R93, R97). -/
def GoesOnFrom (c : Addr) (s u : State) : Prop :=
  (s.fc.link = .active → ∀ n : Addr, s.ptab.firstFree (addrAfter c 1) false = some n →
    u.sid.st = .claiming ∧ u.sid.candidate = some n ∧ u.slc.stake = ⟨some ⟨n, .fresh, s.sid.uid⟩, false, none⟩) ∧
  (s.fc.link ≠ .active →
    u.sid.st = .claiming ∧ u.sid.candidate = none ∧ u.sid.search = some (addrAfter c 1, false) ∧ u.slc.stake = .empty)

/-- Giving the candidate `c` up leads to UNADDRESSED: it was the 48th attempt, or in ACTIVE no other slot is EMPTY (R93, R96,
R105). -/
def ClaimEnds (c : Addr) (s : State) : Prop :=
  s.sid.attempts + 1 = 48 ∨ s.fc.link = .active ∧ s.ptab.firstFree (addrAfter c 1) false = none

/-- At EOF the window decides something beyond its own close: a STAKE's its claim, and at the sender an ASK's its outcome and a
MUSTER's the next step of the run (R68, R88). -/
def Window.decides (w : Window) : Bool :=
  match w.frame.body with
  | .stake _ _ => true
  | .ask _ | .muster _ => w.own
  | .notice _ _ | .fixture _ => false

/-- A muster reply after a block of window `w` (R80): a waiting station tries again while positions are left, and is done in a full
window; any other sends as it did. -/
def NextTry (w : Window) (s u : State) : Prop :=
  (∀ o, s.slc.musterReply = .waiting → s.sid.own = some o →
    if w.seen < 15 then u.slc.tx = some (.muster (addrByte o)) ∧ u.slc.musterReply = .waiting
    else u.slc.musterReply = .done) ∧
  (s.slc.musterReply ≠ .waiting → u.slc.tx = s.slc.tx ∧ u.slc.musterReply = s.slc.musterReply)

/-- The window after one more block of another station's has taken its position (R66). -/
def Window.withBlock (w : Window) : Window :=
  { w with seen := w.seen + 1, first := if w.seen = 0 then .delivered else w.first }

end Sys2Proof.Machine
end

