-- ==== Sys2Proof/WellFormed.lean ====
section
/-! DEFINITION. Which command terms stand for an event of the table: what was seen is what the row is about. `exec` does not
need it: on any other term the event cannot come about and the state stays (log 4), or the frame is malformed (R59). -/

namespace Sys2Proof

open Machine

/-- The main part is one that R59 allows. -/
def wellFormedFrame (src tgt : Byte) (body : Body) : Bool := !({ src := src, tgt := tgt, body := body } : Frame).malformed

/-- A selector of R84 with a name of its own. -/
def knownSelector (x : Byte) : Bool := x.toNat ≤ 6 || (0x80 ≤ x.toNat && x.toNat ≤ 0x8F)

/-- A command code of R165. -/
def knownCode (x : Byte) : Bool := 1 ≤ x.toNat && x.toNat ≤ 4

/-- What was seen puts some reply block in error (R66). -/
def wellFormedReplyFinding (f : ReplyFinding) : Bool := replyFindingFound .ask f || replyFindingFound .muster f

/-- The command stands for an event of the table. -/
def Instr.wellFormed : Instr → Bool
  | .reset | .resetRelease _ _ | .endOfLoading | .fsyncEdge _ | .substituteTick | .pollTimerExpiry
  | .temperatureReadCompletion _ | .senseWindowOpen | .senseWindowClose | .countArrival _ | .intervalTimerExpiry
  | .settleTimeout | .receiverReady | .transmitStart _ => true
  | .arbitrationLoss _ pulse => pulseClass pulse = .zero
  | .bitError _ pulse => pulse < 9000
  | .sendSymbolError _ pulse => 1500 < pulse
  | .malformedFrame f => findingFound f
  | .ownNoticeComplete | .ownAskComplete | .ownStakeComplete | .ownMusterComplete => true
  | .noticeReceived src lum flags => wellFormedFrame src 62 (.notice lum flags)
  | .musterReceived src start => wellFormedFrame src 62 (.muster start)
  | .stakeReceived src tgt uid mode => wellFormedFrame src tgt (.stake uid mode)
  | .capability src tgt | .status src tgt | .statusClear src tgt | .identity src tgt | .gains src tgt | .targets src tgt
  | .storeState src tgt | .page src tgt _ => wellFormedFrame src tgt (.ask 0)
  | .unknownSelector src tgt selector => wellFormedFrame src tgt (.ask selector) && !knownSelector selector
  | .arm src tgt rest | .disarm src tgt rest | .burn src tgt rest | .lock src tgt rest =>
    wellFormedFrame src tgt (.fixture (0 :: rest))
  | .unknownCommand src tgt code rest => wellFormedFrame src tgt (.fixture (code :: rest)) && !knownCode code
  | .contestByteReceived _ | .musterByteReceived _ => true
  | .answerBlockReceived block => 1 ≤ block.length && block.length ≤ 16
  | .fixtureStatusByteReceived _ => true
  | .replyBlockError e => 1 ≤ e.pos && e.pos ≤ 16 && wellFormedReplyFinding e.finding
  | .ownReplyComplete | .frameEof | .reportTimerDue | .spacingCountFull | .listenEnd | .slotStale | .slotRemoval
  | .driverTransferComplete | .silenceExpiry => true
  | .detach _ onTime => fourBitTimesUs < onTime
  | .detachRecovery _ | .detachHistoryClear => true
  | .busStuckSet dominant => 1000 < dominant
  | .busStuckClear | .burnByteComplete _ | .lockComplete | .startOfFrame _ _ => true

end Sys2Proof
end

