-- ==== Sys2Proof/Certificates/Slice0/Obligations.lean ====
section
/-! DEFINITION. The statements for the provers: the queue, the commands block by block, the invariants that every step keeps,
and what no step does. -/

open Sys2Proof Sys2Proof.Machine

/-! ### The queue, and that commands complete -/

/-- A step is the front command's effect on the state with the queue's rest (EVENTS AND OPERATIONS). With no command waiting one
part of an own symbol passes (that it does so at such a step is the model's choice, log 19): the dominant part ends with the
driver released, and in a main part with the own bit received (a reply's bits stay out of the frame in reception: log
40); the recessive part ends with the next symbol driven, where there is one (R49, R50). A station that sends nothing idles. -/
def Obligations.StepRunsTheFrontCommand : Prop :=
  (∀ (c : Instr) (rest : List Instr) (s : State), s.pending = c :: rest → step s = exec c (s.setPending rest)) ∧
  ∀ s : State, s.pending = [] →
    (s.pins.resetHeld = true ∨ s.slc.tx = none → step s = .next s) ∧
    ∀ x, s.live → s.slc.tx = some x →
      ∃ u, step s = .next u ∧
        (s.slc.driver = .driving → ∃ rx, u.slc = { s.slc with driver := .released, rx := rx } ∧
          (∀ f b r, x = .main f → s.slc.phase = .main → x.symbols[s.slc.txPos]? = some (bitSymbol b) →
            s.slc.rx = some r → rx = some (r.bit b)) ∧
          ((∀ f, x ≠ .main f) → rx = s.slc.rx)) ∧
        (s.slc.driver = .released →
          u.slc = if s.slc.phase ≠ .ready ∧ s.slc.txPos + 1 < x.symbols.length then
                    { s.slc with driver := .driving, txPos := s.slc.txPos + 1 }
                  else s.slc) ∧
        OnlyChanges [.slc] s u

/-- Every command completes; none changes the queue or the UID (R90). Where the event cannot come about in a state, that it
completes with the state as it was is the model's choice (log 4). -/
def Obligations.EveryCommandCompletes : Prop :=
  ∀ (c : Instr) (s : State), ∃ t, exec c s = .next t ∧ t.pending = s.pending ∧ t.sid.uid = s.sid.uid

/-! ### Reset and loading -/

/-- RESET leaves every block at the value its own rule gives (R5, R13, R17, R33, R48, R69, R89, R107, R125, R143, R146, R158, R161,
R172, R179); outside a burn the array is as it was (R172). That the reset line is held (log 5), that SWIN's level is kept (log 9) and
that no hand-off of an emptied slot is on its way (log 37) are the model's. -/
def Obligations.ResetReturnsEveryBlock : Prop :=
  ∀ s : State, ∃ t, exec .reset s = .next t ∧ t.pins.resetHeld = true ∧ t.pins.swin = s.pins.swin ∧
    t.ftb = { lastEdge := none, syncTimer := none, nosync := false } ∧
    (t.tmon.tf = 320 ∧ t.tmon.tfault = true ∧ t.tmon.hot = false ∧ t.tmon.crit = false ∧ t.tmon.failRun = 0 ∧
      t.tmon.validRun = 0 ∧ t.tmon.pollTimer = none) ∧
    t.lsb = { inFlight := none, tmonWaiting := false, sseqWaiting := false } ∧
    (t.lest.f = none ∧ t.lest.l = none ∧ t.lest.a = ⟨32768, 32768, 32768⟩ ∧ t.lest.lRep = none ∧ t.lest.flagsRep = none ∧
      t.lest.ownFlags = 0x14) ∧
    (t.sseq.st = .idle ∧ t.sseq.chan = .r ∧ t.sseq.fails = ⟨0, 0, 0⟩ ∧ t.sseq.late = false ∧ t.sseq.settleRounds = 0 ∧
      t.sseq.interval = none ∧ t.sseq.settleCount = none ∧ t.sseq.drive = none ∧ t.sseq.settling = true ∧
      t.sseq.senseFault = false ∧ t.sseq.heldTf = 320 ∧ t.sseq.heldTfault = true) ∧
    (t.slc.driver = .released ∧ t.slc.phase = .hunt ∧ t.slc.recessive = 0 ∧ t.slc.rx = none ∧ t.slc.window = none ∧
      t.slc.tx = none ∧ t.slc.txPos = 0 ∧ t.slc.mark = .none ∧ t.slc.stake = .empty ∧ t.slc.ask = .empty ∧ t.slc.notice = .empty ∧
      t.slc.muster = .empty ∧ t.slc.reportTimer = none ∧ t.slc.spacing = 4 ∧ t.slc.deferred = false ∧
      t.slc.capture = none ∧ t.slc.musterReply = .notReplying ∧ t.slc.musterRun = false) ∧
    (t.fc.link = .active ∧ t.fc.tec = 0 ∧ t.fc.recCount = 0 ∧ t.fc.silenceTimer = none ∧ t.fc.cut = false ∧
      t.fc.driverOn = none ∧ t.fc.recoveryTimer = none ∧ t.fc.history = [] ∧ t.fc.historyTimer = none ∧
      t.fc.stuckFor = none ∧ t.fc.busStuck = false) ∧
    (t.sid.uid = s.sid.uid ∧ t.sid.st = .load ∧ t.sid.own = none ∧ t.sid.candidate = none ∧ t.sid.search = none ∧
      t.sid.attempts = 0 ∧ t.sid.listen = none ∧ t.sid.reassert = false ∧ t.sid.emptied = false ∧ t.sid.decision = .none) ∧
    ((∀ a : Addr, t.ptab.slots.get a = .empty) ∧ t.ptab.askTarget = none ∧ t.ptab.awaited = false ∧
      t.ptab.heldId = .load ∧ t.ptab.heldLink = .active) ∧
    (t.tge.own = none ∧ (∀ a : Addr, t.tge.peers.get a = none) ∧ t.tge.crit = false ∧ t.tge.size = 0 ∧ t.tge.median = none ∧
      t.tge.target = none ∧ t.tge.desired = none ∧ t.tge.ceiled = none ∧ t.tge.marks = ⟨false, false, false⟩ ∧
      t.tge.belowFloor = false ∧ t.tge.floored = false ∧ t.tge.applied = ⟨3840, 3840, 3840⟩) ∧
    (t.drvp.sending = none ∧ t.drvp.pending = none ∧ t.drvp.latched = s.drvp.latched) ∧
    (t.csto.burn = none ∧ t.csto.latch = false ∧ t.csto.lastResult = .none ∧ t.csto.loaded = none ∧
      (s.csto.burn = none → t.csto.array = s.csto.array)) ∧
    t.evu = { raw := 0x0001, latched := 0, marks := 0, mask := 0, faultLine := false }

/-- A RESET in a burn leaves the byte under burn at its old value OR some of its intended bits, whatever these are (the free
value of log 8), and every other byte as it was (R172). -/
def Obligations.ResetCutsABurnOff : Prop :=
  ∀ (s : State) (a0 : Nat) (intended : Byte), s.csto.array.wf = true →
    ((∃ off data i, s.csto.burn = some (.bytes off data i) ∧ a0 = off + i ∧ intended = data.getD i 0) ∨
      ∃ marks before, s.csto.burn = some (.lock marks before) ∧ a0 = 127 ∧ intended = marks) →
    ∃ t, exec .reset s = .next t ∧ t.csto.burn = none ∧ t.csto.latch = false ∧ t.csto.lastResult = .none ∧
      (∀ a, a ≠ a0 → t.csto.array.read a = s.csto.array.read a) ∧
      ∃ taken : Byte, taken &&& intended = taken ∧ t.csto.array.read a0 = s.csto.array.read a0 ||| taken

/-- RESET_RELEASE ends the held reset: FXS is sampled (R161), the sync-loss, poll and silence timers start (R5, R13, R158);
out of a held reset it changes nothing (log 4). -/
def Obligations.ReleaseStartsTheTimers : Prop :=
  ∀ (s : State) (t : Nat) (fxs : Bool),
    (s.pins.resetHeld = true →
      ∃ u, exec (.resetRelease t fxs) s = .next u ∧ u.live ∧ u.pins.swin = s.pins.swin ∧
        u.csto = { s.csto with fixtureEnable := fxs } ∧ u.ftb = { s.ftb with syncTimer := some (t + 40000) } ∧
        u.tmon = { s.tmon with pollTimer := some (t + 100000) } ∧
        u.fc = { s.fc with silenceTimer := some (t + 500000) } ∧ OnlyChanges [.pins, .csto, .ftb, .tmon, .fc] s u) ∧
    (s.live → exec (.resetRelease t fxs) s = .next s)

/-- END_OF_LOADING hands the loaded copy to every block (R164): thresholds (R11), first estimates (R18), the sequencer's start
(R34, R45), LISTEN (R91), the start gains, the first own entry and the first recompute (R126, R127, R146), mask, UNCAL and
SET_DEFAULT (R179). The evaluation made here moves nothing of the signalling: in LISTEN an early request is dropped (R30, R76). -/
def Obligations.LoadingStartsEveryBlock : Prop :=
  ∀ (s : State) (p : Params), s.live → s.csto.loaded = none → p = loadParams s.csto.array →
    ∃ u, exec .endOfLoading s = .next u ∧ u.csto = { s.csto with loaded := some p } ∧
      (if s.tmon.tfault then u.tmon = s.tmon else TestedAs p s.tmon u.tmon ∧ u.tmon.tf = s.tmon.tf) ∧
      u.lest.f = some (p.chars.map fun c => thermalFactor c.curve s.tmon.tf) ∧ u.lest.a = s.lest.a ∧
      (∃ f, u.lest.f = some f ∧ u.lest.l = some (estimates p.chars f s.lest.a)) ∧ u.lest.ownFlags = u.flags ∧
      (if p.uncal then u.sseq.st = .idle ∧ u.sseq.settling = false ∧ u.sseq.settleCount = s.sseq.settleCount
       else u.sseq.st = .due ∧ u.sseq.chan = .r ∧ u.sseq.fails = ⟨0, 0, 0⟩ ∧ u.sseq.settleRounds = 0 ∧
         u.sseq.settling = s.sseq.settling ∧
         u.sseq.settleCount = (if s.tmon.tfault then s.sseq.settleCount else some 0)) ∧
      u.sid = { s.sid with st := .listen, listen := some 0 } ∧ u.ptab.heldId = .listen ∧
      u.tge.applied = ⟨16 * (256 - p.headroomLoss), 16 * (256 - p.headroomLoss), 16 * (256 - p.headroomLoss)⟩ ∧
      u.drvp = s.drvp.arrive u.tge.applied ∧ EngineWorks p s u ∧
      u.evu.mask = p.faultMask ∧ u.evu.raw = u.conditions ∧ u.evu.raw.getLsbD 4 = p.uncal ∧
      (s.sid.st = .load → s.ptab.askTarget = none → u.slc = s.slc) ∧
      (p.setDefault = true → u.evu.latched.getLsbD 5 = true) ∧
      (p.uncal = true → s.evu.raw.getLsbD 4 = false → u.evu.latched.getLsbD 4 = true) ∧
      OnlyChanges [.csto, .tmon, .lest, .sseq, .sid, .slc, .ptab, .tge, .drvp, .evu] s u

/-- What the load gives. UNCAL exactly when a check of the CHAR section fails, with the nominal values for every channel, and the
values held otherwise (R162); SET_DEFAULT exactly when the SET section's version or CRC fails, with the defaults, and each field
clamped with both relations otherwise (R163). Whatever the array holds, every loaded value lies in its range. -/
def Obligations.LoadedCopyInRange : Prop :=
  ∀ m : Memory,
    (loadParams m).inRange ∧
    ((loadParams m).uncal = false ↔ CharSectionValid m) ∧
    (CharSectionValid m → HoldsBlock m 8 (loadParams m).chars.r ∧ HoldsBlock m 30 (loadParams m).chars.g ∧
      HoldsBlock m 52 (loadParams m).chars.b) ∧
    (¬CharSectionValid m → ∀ c : Channel, (loadParams m).chars.get c = ⟨8192, 8192, List.replicate 9 32768⟩) ∧
    ((loadParams m).setDefault = false ↔ SetSectionValid m) ∧
    (SetSectionValid m → SettingsStored m (loadParams m)) ∧
    (¬SetSectionValid m → SettingsDefault (loadParams m))

/-! ### Ticks -/

/-- An FSYNC edge at least 4 ms after the last accepted edge, or the first since reset, is accepted: a tick at the five blocks,
NOSYNC clear, the timer restarted for 40 ms. An earlier edge is a glitch and changes nothing. An expiry of the sync-loss timer
is a substitute tick: NOSYNC raised, the next expiry 20 ms later. While the reset line is held no edge is seen (R1 to R4). In
LOAD a tick counts the spacing alone (R4, R5, R76). That the counts stand at their limits until their own events is the model's
(logs 3, 29). A tick's slew may come before or after its STALE notifications (R139), and the hand-off of a slot it has emptied
may still be on its way (R114): both are free (logs 33, 37). What a tick changes of the own flags is evaluated for an early request
once, at its end (R30; that once is DEDUCED: log 13). -/
def Obligations.EdgesAndExpiriesTick : Prop :=
  ∀ s : State, (s.pins.resetHeld = true → ∀ t, exec (.fsyncEdge t) s = .next s) ∧ (s.live →
    (∀ t, (∀ e, s.ftb.lastEdge = some e → e + 4000 ≤ t) → ∀ p, s.csto.loaded = some p →
      ∃ u, exec (.fsyncEdge t) s = .next u ∧
        u.ftb = { lastEdge := some t, syncTimer := some (t + 40000), nosync := false } ∧ TickReached p s u ∧
        u.evu.raw.getLsbD 8 = false ∧
        OnlyChanges [.ftb, .ptab, .tge, .drvp, .sseq, .slc, .sid, .lest, .evu, .freeReads] s u) ∧
    (∀ t e, s.ftb.lastEdge = some e → e ≤ t → t < e + 4000 → exec (.fsyncEdge t) s = .next s) ∧
    (∀ e p, s.ftb.syncTimer = some e → s.csto.loaded = some p →
      ∃ u, exec .substituteTick s = .next u ∧
        u.ftb = { lastEdge := s.ftb.lastEdge, syncTimer := some (e + 20000), nosync := true } ∧ TickReached p s u ∧
        u.evu.raw.getLsbD 8 = true ∧ (s.evu.raw.getLsbD 8 = false → u.evu.latched.getLsbD 8 = true) ∧
        OnlyChanges [.ftb, .ptab, .tge, .drvp, .sseq, .slc, .sid, .lest, .evu, .freeReads] s u) ∧
    (s.csto.loaded = none → s.sid.st = .load →
      (∀ t, (∀ e, s.ftb.lastEdge = some e → e + 4000 ≤ t) →
        ∃ u, exec (.fsyncEdge t) s = .next u ∧
          u.ftb = { lastEdge := some t, syncTimer := some (t + 40000), nosync := false } ∧
          u.slc = { s.slc with spacing := min 4 (s.slc.spacing + 1) } ∧ u.evu.raw.getLsbD 8 = false ∧
          OnlyChanges [.ftb, .slc, .lest, .evu] s u) ∧
      ∀ e, s.ftb.syncTimer = some e →
        ∃ u, exec .substituteTick s = .next u ∧
          u.ftb = { lastEdge := s.ftb.lastEdge, syncTimer := some (e + 20000), nosync := true } ∧
          u.slc = { s.slc with spacing := min 4 (s.slc.spacing + 1) } ∧ u.evu.raw.getLsbD 8 = true ∧
          OnlyChanges [.ftb, .slc, .lest, .evu] s u))

/-! ### Temperature, sensor bus -/

/-- A valid sample with TFAULT clear moves T_f by the filter (R8), returns the failure run to 0 (R7), and tests the thresholds
when T_f has moved and they are loaded (R11); the estimator (R20, R24) and the sequencer (R45, R46) take the new T_f, the engine the
own entry and CRIT (R126, R127), the arbiter the next operation, a waiting count taking the sequencer from ARMED to WAIT (R15,
R36), and the significant-change test is evaluated on what has changed (R30; once, with a returning BELOWFLOOR: DEDUCED, log 13). -/
def Obligations.SampleMovesTheFilter : Prop :=
  ∀ (s : State) (x : Int), s.live → s.lsb.inFlight = some .temperature → s.tmon.tfault = false → -640 ≤ x → x ≤ 2000 →
    ∃ u, exec (.temperatureReadCompletion (some x)) s = .next u ∧
      u.tmon.tf = (if (x - s.tmon.tf).natAbs < 8 then x else s.tmon.tf + (x - s.tmon.tf).tdiv 8) ∧
      u.tmon.failRun = 0 ∧ u.tmon.tfault = false ∧ u.tmon.validRun = s.tmon.validRun ∧
      u.tmon.pollTimer = s.tmon.pollTimer ∧
      (∀ p, s.csto.loaded = some p → u.tmon.tf ≠ s.tmon.tf → TestedAs p s.tmon u.tmon) ∧
      (s.csto.loaded = none ∨ u.tmon.tf = s.tmon.tf → u.tmon.hot = s.tmon.hot ∧ u.tmon.crit = s.tmon.crit) ∧
      (∀ p, s.csto.loaded = some p → u.tmon.tf ≠ s.tmon.tf →
        u.lest.f = some (p.chars.map fun c => thermalFactor c.curve u.tmon.tf) ∧
          ∃ f, u.lest.f = some f ∧ u.lest.l = some (estimates p.chars f s.lest.a)) ∧
      (u.tmon.tf = s.tmon.tf → u.lest.f = s.lest.f ∧ u.lest.l = s.lest.l) ∧ u.lest.a = s.lest.a ∧
      SequencerTold s u ∧ ArbiterGoesOn s u ∧ (∀ p, s.csto.loaded = some p → EngineWorks p s u) ∧ EvaluatedAlone s u ∧
      OnlyChanges [.tmon, .lsb, .sseq, .lest, .tge, .slc, .evu] s u

/-- The runs and TFAULT (R7, R9, R10): the tenth failure in a row raises TFAULT, the fifth valid sample in a row clears it with
T_f taking that sample; short of that the run that applies rises, and T_f holds. At a clearing the factors and estimates are
computed anew from the new T_f (R10, R20, R24), and the first after loading, with SETTLING still set, starts the settle timeout
count at 0 (R45). Every outcome reaches sequencer and engine (R46, R126), the arbiter goes on to the next operation (R15, R36),
and the significant-change test is evaluated on what has changed (R30; once, with a returning BELOWFLOOR: DEDUCED, log 13). -/
def Obligations.RunsRaiseAndClearTfault : Prop :=
  ∀ (s : State) (o : Option Int), s.live → s.lsb.inFlight = some .temperature →
    ∃ u, exec (.temperatureReadCompletion o) s = .next u ∧
      ((∀ x, o = some x → x < -640 ∨ 2000 < x) →
        u.tmon =
          (if s.tmon.tfault then { s.tmon with validRun := 0 }
           else if 9 ≤ s.tmon.failRun then { s.tmon with tfault := true, failRun := 0, validRun := 0 }
           else { s.tmon with failRun := s.tmon.failRun + 1 })) ∧
      (∀ x, o = some x → -640 ≤ x → x ≤ 2000 → s.tmon.tfault = true →
        if 4 ≤ s.tmon.validRun then
          u.tmon.tfault = false ∧ u.tmon.tf = x ∧ u.tmon.validRun = 0 ∧
            ∀ p, s.csto.loaded = some p → TestedAs p s.tmon u.tmon ∧
              (∃ f, f = p.chars.map (fun c => thermalFactor c.curve x) ∧ u.lest.f = some f ∧
                u.lest.l = some (estimates p.chars f s.lest.a)) ∧
              (s.sseq.heldTfault = true →
                u.sseq.settleCount = if s.sseq.settling = true ∧ s.sseq.settleCount = none then some 0
                                     else s.sseq.settleCount)
        else u.tmon = { s.tmon with validRun := s.tmon.validRun + 1 }) ∧
      SequencerTold s u ∧ ArbiterGoesOn s u ∧ (∀ p, s.csto.loaded = some p → EngineWorks p s u) ∧ EvaluatedAlone s u ∧
      u.evu.raw.getLsbD 0 = u.tmon.tfault ∧
      OnlyChanges [.tmon, .lsb, .sseq, .lest, .tge, .slc, .evu] s u

/-! ### Sense rounds -/

/-- A window that opens in DUE with TFAULT clear and no late count lights the current channel and asks for a count, which
starts at once on an idle bus; otherwise it is ignored or passed over (R35, R36, R14). A window that closes in ARMED withdraws
the request, in WAIT leaves the count to run late; both count one failure and turn the drive off. In IDLE and DUE the close is
ignored (R40, R39, R17). A flag that the failure changes is evaluated for an early request
(R30; once, with a returning BELOWFLOOR: DEDUCED, log 13). -/
def Obligations.SenseWindowsOpenAndClose : Prop :=
  ∀ s : State, s.live →
    (∃ u, exec .senseWindowOpen s = .next u ∧ u.pins = { s.pins with swin := true } ∧
      (if s.sseq.st = .due ∧ s.sseq.heldTfault = false ∧ s.sseq.late = false then
         (if s.lsb.inFlight = none then
            u.sseq = { s.sseq with drive := some s.sseq.chan, st := .wait } ∧ u.lsb = { s.lsb with inFlight := some .count }
          else
            u.sseq = { s.sseq with drive := some s.sseq.chan, st := .armed } ∧ u.lsb = { s.lsb with sseqWaiting := true })
       else u.sseq = s.sseq ∧ u.lsb = s.lsb) ∧
      OnlyChanges [.pins, .sseq, .lsb] s u) ∧
    ∃ u, exec .senseWindowClose s = .next u ∧ u.pins = { s.pins with swin := false } ∧
      (match s.sseq.st with
       | .idle | .due => u.sseq = s.sseq ∧ u.lsb = s.lsb
       | .armed => FailureCounted s.sseq u.sseq ∧ u.lsb = { s.lsb with sseqWaiting := false } ∧ u.sseq.late = s.sseq.late
       | .wait => FailureCounted s.sseq u.sseq ∧ u.lsb = s.lsb ∧ u.sseq.late = true) ∧
      EvaluatedAlone s u ∧ OnlyChanges [.pins, .sseq, .lsb, .lest, .tge, .slc, .evu] s u

/-- The outcome of a count operation (R37, R38, R41, R42): late, it is discarded; in WAIT it is discarded under TFAULT,
a failure when it is 0, 65535 or no response, and otherwise accepted: the channel's aging factor makes its filter step (R22),
its estimate follows (R23), and the channel advances, or the round is complete. The engine takes what has changed (R126,
R127), the arbiter goes on to the next operation (R15, R36), and where the own triple or the own flags have changed the
significant-change test is evaluated, an early request following where it holds (R30; once, with a returning BELOWFLOOR: DEDUCED,
log 13). -/
def Obligations.CountOutcomeIsClassed : Prop :=
  ∀ (s : State) (o : Option (BitVec 16)) (p : Params) (f : Rgb Nat), s.live → s.lsb.inFlight = some .count →
    s.csto.loaded = some p → s.lest.f = some f →
    ∃ u, exec (.countArrival o) s = .next u ∧
      (s.sseq.late = true → u.sseq.late = false ∧ u.lest.a = s.lest.a ∧ u.sseq.fails = s.sseq.fails ∧
        u.sseq.chan = s.sseq.chan ∧ u.sseq.st = stateAfterBus s) ∧
      (s.sseq.late = false → s.sseq.st ≠ .wait → u.sseq = { s.sseq with st := stateAfterBus s } ∧ u.lest.a = s.lest.a) ∧
      (s.sseq.late = false → s.sseq.st = .wait →
        u.sseq.drive = none ∧
        (s.sseq.heldTfault = true → u.sseq = { s.sseq with drive := none, st := .due } ∧ u.lest.a = s.lest.a) ∧
        (s.sseq.heldTfault = false → (o = none ∨ o = some 0 ∨ o = some 65535) →
          FailureCounted s.sseq u.sseq ∧ u.lest.a = s.lest.a) ∧
        (∀ n : BitVec 16, s.sseq.heldTfault = false → o = some n → n ≠ 0 → n ≠ 65535 →
          (let c := s.sseq.chan
           let q := clampNat 16384 34816 (n.toNat * 2 ^ 30 / ((p.chars.get c).sRef * f.get c))
           let d : Int := (q : Int) - (s.lest.a.get c : Int)
           u.lest.a = s.lest.a.set c (if d.natAbs < 4 then q else ((s.lest.a.get c : Int) + d.tdiv 4).toNat) ∧
             ∀ l, s.lest.l = some l →
               u.lest.l = some (l.set c (min 65535 ((p.chars.get c).lRef * f.get c * u.lest.a.get c / 2 ^ 30)))) ∧
          (match s.sseq.chan with
           | .r => u.sseq.chan = .g ∧ u.sseq.st = .due ∧ u.sseq.fails = s.sseq.fails.set .r 0
           | .g => u.sseq.chan = .b ∧ u.sseq.st = .due ∧ u.sseq.fails = s.sseq.fails.set .g 0
           | .b => u.sseq.chan = .r ∧ u.sseq.fails = ⟨0, 0, 0⟩ ∧ u.sseq.senseFault = false ∧
             (if s.sseq.settling = true then
                u.sseq.settleRounds = s.sseq.settleRounds + 1 ∧
                (if p.settleLimit ≤ s.sseq.settleRounds + 1 then
                   u.sseq.settling = false ∧ u.sseq.st = .idle ∧ u.sseq.interval = some 0
                 else u.sseq.settling = true ∧ u.sseq.st = .due)
              else u.sseq.st = .idle ∧ u.sseq.interval = some 0)))) ∧
      u.sseq.heldTf = s.sseq.heldTf ∧ u.sseq.heldTfault = s.sseq.heldTfault ∧ ArbiterGoesOn s u ∧ EngineWorks p s u ∧
      EvaluatedAlone s u ∧ OnlyChanges [.lsb, .sseq, .lest, .tge, .slc, .evu] s u

/-- A poll restarts its timer for 100 ms and asks for a read: it starts on an idle bus, and waits or merges otherwise (R6, R14).
The interval timer at sense interval × 256 makes a round due with channel R (R43); the settle timeout at four times that, with
SETTLING still set, raises SENSEFAULT, ends settling and abandons the round (R44, R45), and the flags so changed are evaluated
for an early request (R30; once, with a returning BELOWFLOOR: DEDUCED, log 13). -/
def Obligations.PollAndRoundTimersExpire : Prop :=
  ∀ s : State, s.live →
    (∀ e, s.tmon.pollTimer = some e →
      ∃ u, exec .pollTimerExpiry s = .next u ∧ u.tmon = { s.tmon with pollTimer := some (e + 100000) } ∧
        u.lsb = (if s.lsb.inFlight = none then { s.lsb with inFlight := some .temperature }
                 else { s.lsb with tmonWaiting := true }) ∧
        OnlyChanges [.tmon, .lsb] s u) ∧
    (∀ (p : Params) (n : Nat), s.csto.loaded = some p → s.sseq.st = .idle → s.sseq.interval = some n →
      p.senseInterval * 256 ≤ n →
      ∃ u, exec .intervalTimerExpiry s = .next u ∧ u.sseq = { s.sseq with interval := none, st := .due, chan := .r } ∧
        OnlyChanges [.sseq] s u) ∧
    (∀ (p : Params) (n : Nat), s.csto.loaded = some p → s.sseq.settling = true → s.sseq.settleCount = some n →
      4 * p.senseInterval * 256 ≤ n →
      ∃ u, exec .settleTimeout s = .next u ∧
        u.sseq = { s.sseq with
          senseFault := true, settling := false, st := .idle, chan := .r, fails := ⟨0, 0, 0⟩, interval := some 0,
          settleCount := none, drive := none, late := s.sseq.late || s.sseq.st = .wait } ∧
        u.lsb = (if s.sseq.st = .armed then { s.lsb with sseqWaiting := false } else s.lsb) ∧ u.lest.a = s.lest.a ∧
        EvaluatedAlone s u ∧ OnlyChanges [.lsb, .sseq, .lest, .tge, .slc, .evu] s u)

/-! ### Estimates, targets, gains, driver port -/

/-- The thermal factor is worked out in the four steps of R19: interpolated between the two curve points around T_f, with the division
truncated toward zero. It never leaves their closed span, so it lies in 16384..40960 with the points, and equals the point where
T_f is one, which at 320 is 32768. Outside the curve it holds P[0] and P[8]. -/
def Obligations.ThermalFactorInItsSpan : Prop :=
  ∀ (curve : List Nat) (tf : Int), curve.length = 9 →
    (∃ u i r : Nat, (u : Int) = max 0 (min 1280 (tf + 160)) ∧ i = min (u / 160) 7 ∧ r = u - 160 * i ∧ r ≤ 160 ∧
      (thermalFactor curve tf : Int) =
        (curve.getD i 0 : Int) + (((curve.getD (i + 1) 0 : Int) - (curve.getD i 0 : Int)) * (r : Int)).tdiv 160) ∧
    ((∀ x ∈ curve, 16384 ≤ x ∧ x ≤ 40960) → 16384 ≤ thermalFactor curve tf ∧ thermalFactor curve tf ≤ 40960) ∧
    (tf = 320 → curve.getD 3 0 = 32768 → thermalFactor curve tf = 32768) ∧
    (∀ i : Nat, i < 8 → -160 + 160 * (i : Int) ≤ tf → tf ≤ -160 + 160 * ((i : Int) + 1) →
      (thermalFactor curve tf : Int) =
        (curve.getD i 0 : Int) +
          (((curve.getD (i + 1) 0 : Int) - (curve.getD i 0 : Int)) * (tf + 160 - 160 * (i : Int))).tdiv 160 ∧
      min (curve.getD i 0) (curve.getD (i + 1) 0) ≤ thermalFactor curve tf ∧
      thermalFactor curve tf ≤ max (curve.getD i 0) (curve.getD (i + 1) 0) ∧
      (tf = -160 + 160 * (i : Int) → thermalFactor curve tf = curve.getD i 0) ∧
      (tf = -160 + 160 * ((i : Int) + 1) → thermalFactor curve tf = curve.getD (i + 1) 0)) ∧
    (tf ≤ -160 → thermalFactor curve tf = curve.getD 0 0) ∧ (1120 ≤ tf → thermalFactor curve tf = curve.getD 8 0)

/-- No target is above the median's (R132): with no member both come from the own value (R129), with one or two from the smallest
(R130), and from three on the median is the member at index (n − 1) div 2 of the sorted members and the target comes from the
smallest member that is no outlier (R131). Neither depends on the order in which the members stand. -/
def Obligations.TargetFollowsSmallestReachable : Prop :=
  ∀ (h phi own : Nat) (values other : List Nat), h ≤ 256 → phi < 256 → values.Perm other →
    targetOf h phi own values ≤ medianOf own values * h / 256 ∧
    (values = [] → medianOf own values = own ∧ targetOf h phi own values = own * h / 256) ∧
    (1 ≤ values.length → values.length ≤ 2 → medianOf own values ∈ values ∧ (∀ v ∈ values, medianOf own values ≤ v) ∧
      targetOf h phi own values = medianOf own values * h / 256) ∧
    (3 ≤ values.length →
      (∃ sorted : List Nat, sorted.Perm values ∧ sorted.Pairwise (· ≤ ·) ∧
        sorted[(values.length - 1) / 2]? = some (medianOf own values)) ∧
      ∃ m ∈ values, targetOf h phi own values = m * h / 256 ∧ medianOf own values * phi ≤ m * 256 ∧
        m ≤ medianOf own values ∧ ∀ v ∈ values, medianOf own values * phi ≤ v * 256 → m ≤ v) ∧
    targetOf h phi own other = targetOf h phi own values ∧ medianOf own other = medianOf own values

/-- One recompute: the eligible set is the own entry and the peer entries whose flags hold none of the five excluding flags
(R128); median and target of a channel are formed from its members (R129 to R131); the own outlier mark is set exactly for a
calibrated tile, from three members on, below the threshold (R133); the desired gain is 16 × h under UNCAL (R135), 4096 for a
marked channel, and otherwise the largest gain that does not overshoot the target, within g_min..4096 (R134); CRIT lowers it to
2048 at most (R136); BELOWFLOOR and FLOORED gather the channels; the applied gains wait for a tick. -/
def Obligations.GainsFollowTheTargets : Prop :=
  ∀ (p : Params) (t : Tge) (own : Entry), p.settingsInRange → t.own = some own → (∀ c : Channel, 0 < own.lum.get c) →
    ∃ med tgt des g : Rgb Nat,
      (t.recompute p).median = some med ∧ (t.recompute p).target = some tgt ∧ (t.recompute p).desired = some des ∧
      (t.recompute p).ceiled = some g ∧ (t.recompute p).size = t.members.length ∧
      t.members =
        (if own.flags &&& 0x1F = 0 then [own.lum] else []) ++
          t.peers.toList.filterMap (fun e => match e with
            | some x => if x.flags &&& 0x1F = 0 then some x.lum else none
            | none => none) ∧
      (∀ c : Channel,
        med.get c = medianOf (own.lum.get c) (t.members.map fun m => m.get c) ∧
        tgt.get c = targetOf (256 - p.headroomLoss) p.floorRatio (own.lum.get c) (t.members.map fun m => m.get c) ∧
        ((t.recompute p).marks.get c = true ↔
          hasUncal own.flags = false ∧ 3 ≤ t.members.length ∧ own.lum.get c * 256 < med.get c * p.floorRatio) ∧
        (hasUncal own.flags = true → des.get c = 16 * (256 - p.headroomLoss)) ∧
        ((t.recompute p).marks.get c = true → des.get c = 4096) ∧
        (hasUncal own.flags = false → (t.recompute p).marks.get c = false →
          (p.gainFloor * 16 ≤ des.get c ∧ des.get c ≤ 4096) ∧
          (des.get c * own.lum.get c ≤ 4096 * tgt.get c ∨ des.get c = p.gainFloor * 16) ∧
          (4096 * tgt.get c < (des.get c + 1) * own.lum.get c ∨ des.get c = 4096)) ∧
        g.get c = (if t.crit then min (des.get c) 2048 else des.get c)) ∧
      ((t.recompute p).belowFloor = true ↔ ∃ c : Channel, (t.recompute p).marks.get c = true) ∧
      ((t.recompute p).floored = true ↔
        ∃ c : Channel, hasUncal own.flags = false ∧ (t.recompute p).marks.get c = false ∧
          tgt.get c * 4096 / own.lum.get c < p.gainFloor * 16) ∧
      (t.recompute p).applied = t.applied ∧ (t.recompute p).own = t.own ∧ (t.recompute p).peers = t.peers ∧
      (t.recompute p).crit = t.crit

/-- A completed transfer has given the chain its thirty-nine bits, the code of R first and each code's most significant bit
first; a pending set starts, or the port goes idle (R142). A set that arrives at an idle port starts at once; in a transfer it
becomes the pending set, in place of an older one, and the transfer goes on (R141). Of an arrival and a completion at the same
moment, with no older set pending, either order leaves the new set in transfer (R142). -/
def Obligations.TransferGivesThirtyNineBits : Prop :=
  (∀ (d : Drvp) (g : Rgb Nat),
    (d.sending = none → (d.arrive g).sending = some g ∧ (d.arrive g).pending = d.pending) ∧
    (d.sending.isSome → (d.arrive g).sending = d.sending ∧ (d.arrive g).pending = some g) ∧
    (d.arrive g).latched = d.latched ∧
    (∀ old, d.sending.isSome → (d.arrive old).arrive g = d.arrive g) ∧
    (d.sending.isSome → d.pending = none → (d.arrive g).complete = d.complete.arrive g ∧
      (d.arrive g).complete.sending = some g)) ∧
  ∀ (s : State) (g : Rgb Nat), s.live → s.drvp.sending = some g →
    ∃ u, exec .driverTransferComplete s = .next u ∧ u.drvp.sending = s.drvp.pending ∧ u.drvp.pending = none ∧
      u.drvp.latched.length = 39 ∧
      (∀ k, k < 13 → u.drvp.latched[k]? = some (g.r.testBit (12 - k)) ∧
        u.drvp.latched[13 + k]? = some (g.g.testBit (12 - k)) ∧ u.drvp.latched[26 + k]? = some (g.b.testBit (12 - k))) ∧
      OnlyChanges [.drvp] s u

/-! ### Signalling -/

/-- The CRC-8 of two runs of bytes that differ in one byte alone differs (R58). A receiver that assembles the bits of a main part
with one byte after the header changed does not find it valid (R57, R59). -/
def Obligations.CrcSeesEveryChangedByte : Prop :=
  (∀ (before after : List Byte) (x y : Byte), x ≠ y → crc8 (before ++ x :: after) ≠ crc8 (before ++ y :: after)) ∧
  ∀ (f : Frame) (k : Nat) (y : Byte), f.malformed = false → 1 ≤ k → k < f.bytes.length → f.bytes[k]? ≠ some y →
    (Reception.ofBits (lineBits (f.bytes.set k y))).valid = false

/-- RECEIVER_READY takes HUNT to READY. A pulse in READY that is an SOF starts a frame, with the CRC register at 0xFF and the
silence timer restarted; another pulse there is stray. In HUNT every pulse is ignored (R52, R55, R153). In a main part and in a
reply block in place a pulse that is no bit is a symbol error, and a block out of place is ignored (R51, R59, R65, R66; that
START_OF_FRAME brings such a pulse is DEDUCED: log 28). Every pulse begins the recessive time anew (R51). That the mark of an
ended attempt is none after an SOF and after an ignored pulse is the model's choice (log 35), and so are that a frame or block of the
station's own ends here with no bit error, its read-back being due first (log 38), and what counts among the blocks seen (log 39). -/
def Obligations.ReceiverFindsFrames : Prop :=
  ∀ s : State, s.live →
    (s.slc.phase = .hunt → s.fc.busStuck = false →
      ∃ u, exec .receiverReady s = .next u ∧ u.slc = { s.slc with phase := .ready, recessive := 4 } ∧
        OnlyChanges [.slc] s u) ∧
    (∀ t pulse, s.slc.phase = .ready → s.slc.tx = none → 9000 ≤ pulse → pulse ≤ 11000 →
      ∃ u, exec (.startOfFrame t pulse) s = .next u ∧
        u.slc = { s.slc with phase := .main, recessive := 0, window := none, mark := .none,
                             rx := some { bytes := [], shift := 0, bitPos := 0, crc := 0xFF, expected := none } } ∧
        u.fc = { s.fc with silenceTimer := some (t + 500000) } ∧ OnlyChanges [.slc, .fc] s u) ∧
    (∀ t pulse, s.slc.phase = .ready → s.slc.tx = none → (pulse < 9000 ∨ 11000 < pulse) →
      ∃ u, exec (.startOfFrame t pulse) s = .next u ∧ u.slc = { s.slc with recessive := 0, mark := .none } ∧
        OnlyChanges [.slc] s u) ∧
    (∀ t pulse, s.slc.phase = .hunt →
      ∃ u, exec (.startOfFrame t pulse) s = .next u ∧ u.slc = { s.slc with recessive := 0, mark := .none } ∧
        OnlyChanges [.slc] s u) ∧
    (∀ t pulse, (500 ≤ pulse ∧ pulse ≤ 1500 ∨ 2500 ≤ pulse ∧ pulse ≤ 3500) →
      s.slc.phase = .main ∨ s.slc.phase = .window →
      ∃ u, exec (.startOfFrame t pulse) s = .next u ∧ u.slc = { s.slc with recessive := 0 } ∧ OnlyChanges [.slc] s u) ∧
    (∀ t pulse, (pulse < 500 ∨ 1500 < pulse ∧ pulse < 2500 ∨ 3500 < pulse) →
      (s.slc.phase = .main →
        ∃ u, exec (.startOfFrame t pulse) s = .next u ∧ u.slc.phase = .hunt ∧ u.slc.recessive = 0 ∧ u.slc.rx = none ∧
          u.slc.mark = .none ∧ (s.slc.sendingMain = true → u.slc.tx = none ∧ u.slc.driver = .released) ∧
          u.fc = { s.fc with recCount := min 255 (s.fc.recCount + 1) } ∧ OnlyChanges [.slc, .fc, .evu] s u) ∧
      ∀ w, s.slc.phase = .window → s.slc.window = some w →
        (w.running = true ∧ w.seen < w.frame.body.kind.blocksAllowed →
          ∃ u, exec (.startOfFrame t pulse) s = .next u ∧
            u.slc.window =
              some { w with running := false, seen := w.seen + 1, first := if w.seen = 0 then .error else w.first } ∧
            u.slc.recessive = 0 ∧ u.slc.musterReply ≠ .waiting ∧ (s.slc.sendingReply = true → u.slc.tx = none) ∧
            u.fc = { s.fc with recCount := min 255 (s.fc.recCount + 1) } ∧ OnlyChanges [.slc, .fc, .evu] s u) ∧
        (w.running = false ∨ w.frame.body.kind.blocksAllowed ≤ w.seen →
          ∃ u, exec (.startOfFrame t pulse) s = .next u ∧ u.slc = { s.slc with recessive := 0 } ∧ OnlyChanges [.slc] s u))

/-- At line idle the station starts the frame of the pending slot with the lowest kind code that its states allow: in RUN and
ACTIVE any, in CLAIMING and ACTIVE the STAKE alone, else none. A NOTICE captures own address, triple and flags (R71, R77). An own
SOF that reads back as one starts a frame at the own receiver and restarts the silence timer (R52, R153). One that does not leaves
the receiver in READY until its read-back ends the attempt (DEDUCED from R51, R55 and R60: log 28). -/
def Obligations.IdleStartsTheLowestKind : Prop :=
  ∀ (s : State) (sof : SofSent), s.live → s.slc.phase = .ready → s.slc.tx = none →
    ∃ u, exec (.transmitStart sof) s = .next u ∧
      (∀ x, s.fc.link = .active → s.slc.stake.content = some x → (s.sid.st = .run ∨ s.sid.st = .claiming) →
        u.slc.tx = some (.main ⟨63, addrByte x.target, .stake x.uid x.mode.code⟩)) ∧
      (∀ x a, s.fc.link = .active → s.sid.st = .run → s.sid.own = some a → s.slc.stake.content = none →
        s.slc.ask.content = some x → u.slc.tx = some (.main ⟨addrByte a, addrByte x.target, .ask x.selector⟩)) ∧
      (∀ a l, s.fc.link = .active → s.sid.st = .run → s.sid.own = some a → s.lest.l = some l →
        s.slc.stake.content = none → s.slc.ask.content = none → s.slc.notice.content = some () →
        u.slc.tx = some (.main ⟨addrByte a, 62, .notice (l.map (BitVec.ofNat 16)) s.lest.ownFlags⟩)) ∧
      (∀ a start, s.fc.link = .active → s.sid.st = .run → s.sid.own = some a → s.slc.stake.content = none →
        s.slc.ask.content = none → s.slc.notice.content = none → s.slc.muster.content = some start →
        u.slc.tx = some (.main ⟨addrByte a, 62, .muster start⟩)) ∧
      ((s.fc.link ≠ .active ∨ s.sid.st = .load ∨ s.sid.st = .listen ∨ s.sid.st = .unaddressed ∨
          s.sid.st = .claiming ∧ s.slc.stake.content = none ∨
          s.sid.st = .run ∧ s.slc.stake.content = none ∧ s.slc.ask.content = none ∧ s.slc.notice.content = none ∧
            s.slc.muster.content = none) →
        u.slc = { s.slc with recessive := 6 } ∧ u.fc = s.fc) ∧
      (u.slc.tx ≠ none → u.slc.txPos = 0 ∧ u.slc.mark = .asSent ∧
        (if 9000 ≤ sof.pulse ∧ sof.pulse ≤ 11000 then
           u.slc.phase = .main ∧ u.slc.driver = .released ∧
             u.slc.rx = some { bytes := [], shift := 0, bitPos := 0, crc := 0xFF, expected := none } ∧
             u.fc = { s.fc with silenceTimer := some (sof.moment + 500000) }
         else u.slc.phase = .ready ∧ u.slc.rx = s.slc.rx ∧ u.fc = s.fc)) ∧
      u.slc.stake = s.slc.stake ∧ u.slc.ask = s.slc.ask ∧ u.slc.notice = s.slc.notice ∧ u.slc.muster = s.slc.muster ∧
      OnlyChanges [.slc, .fc] s u

/-- A sent 1 that reads back as 0: a main part not withdrawn stays pending, and a withdrawn one gives way to the content held for
after it (R73); a contest or muster byte is lost, an answer or status byte is abandoned; the station sends no further bit and no
count moves. In a main part the own receiver goes on with the bits so far and the 0; the pulse begins the recessive time anew
(R51, R57, R60, R61, R72). -/
def Obligations.LosingStopsWithoutError : Prop :=
  ∀ (s : State) (x : Sending) (pos pulse : Nat), s.live → s.slc.tx = some x → s.slc.phase = x.phaseAt pos →
    x.symbols[pos]? = some .one → 2500 ≤ pulse → pulse ≤ 3500 →
    ∃ u, exec (.arbitrationLoss pos pulse) s = .next u ∧
      u.slc = { s.slc with
        driver := .released, tx := none, txPos := 0, recessive := 0,
        mark := (match x with
          | .status _ | .answer _ _ => .abandoned
          | .main _ | .contest _ | .muster _ => .lost),
        rx := (match x with
          | .main f => some (.ofBits ((lineBits f.bytes).take (pos - 1) ++ [false]))
          | _ => s.slc.rx),
        stake := u.slc.stake, ask := u.slc.ask, notice := u.slc.notice, muster := u.slc.muster } ∧
      SlotEnded .stake x s.slc.stake u.slc.stake ∧ SlotEnded .ask x s.slc.ask u.slc.ask ∧
      SlotEnded .notice x s.slc.notice u.slc.notice ∧ SlotEnded .muster x s.slc.muster u.slc.muster ∧
      OnlyChanges [.slc] s u

/-- A sent symbol that reads back shorter than driven is a bit error: the driver is released, TEC rises by 8, at 128 an ACTIVE
station goes QUIET. One that reads back longer stops the station alike, with no count moved. The slots keep a content that is not
withdrawn, and a withdrawn frame gives way to the content held for after it. In the own muster byte either error leaves the muster
reply done (R80). The pulse begins the recessive time anew (R51, R60, R62, R72, R73, R147, R149). -/
def Obligations.SendErrorsStopTheStation : Prop :=
  ∀ (s : State) (x : Sending) (sent : Sent) (pos pulse : Nat), s.live → s.slc.tx = some x →
    s.slc.phase = x.phaseAt pos → x.symbols[pos]? = some sent →
    ((match sent with
      | .one => pulse < 500
      | .zero => pulse < 2500
      | .sof => pulse < 9000) →
      ∃ u, exec (.bitError pos pulse) s = .next u ∧ u.slc.tx = none ∧ u.slc.driver = .released ∧ u.slc.recessive = 0 ∧
        (∀ v, x = .muster v → s.slc.musterReply ≠ .notReplying → u.slc.musterReply = .done) ∧
        u.fc = { s.fc with tec := min 255 (s.fc.tec + 8),
                           link := if s.fc.link = .active ∧ 128 ≤ min 255 (s.fc.tec + 8) then .quiet else s.fc.link } ∧
        SlotEnded .notice x s.slc.notice u.slc.notice ∧ SlotEnded .muster x s.slc.muster u.slc.muster ∧
        SlotEnded .stake x s.slc.stake u.slc.stake ∧ (u.fc.link = s.fc.link → SlotEnded .ask x s.slc.ask u.slc.ask) ∧
        u.evu.raw.getLsbD 9 = decide (u.fc.link = .quiet) ∧ OnlyChanges [.slc, .fc, .sid, .ptab, .evu] s u) ∧
    ((match sent with
      | .one => 3500 < pulse ∨ 1500 < pulse ∧ pulse < 2500
      | .zero => 3500 < pulse
      | .sof => 11000 < pulse) →
      ∃ u, exec (.sendSymbolError pos pulse) s = .next u ∧ u.slc.tx = none ∧ u.slc.driver = .released ∧ u.slc.recessive = 0 ∧
        u.slc.mark = .stopped ∧ (∀ v, x = .muster v → s.slc.musterReply ≠ .notReplying → u.slc.musterReply = .done) ∧
        SlotEnded .notice x s.slc.notice u.slc.notice ∧ SlotEnded .muster x s.slc.muster u.slc.muster ∧
        SlotEnded .stake x s.slc.stake u.slc.stake ∧ SlotEnded .ask x s.slc.ask u.slc.ask ∧ OnlyChanges [.slc] s u)

/-- A malformed frame is discarded: HUNT, one receive error, nothing delivered (R59, R148). At EOF the receiver is in READY, the 4
bit times of HUNT having passed (R55; DEDUCED: log 34). An own main part does not complete: its slot stays pending, or, withdrawn,
takes the content held for after it (R63, R72, R73). An own SOF longer than 11 µs is found so once its sending has stopped (R62;
DEDUCED: log 28). That the mark of the attempt is none after either is the model's choice (log 35), and so is that an own main part
whose read-back has not come first ends with no bit error (log 38). -/
def Obligations.MalformedFrameIsDiscarded : Prop :=
  ∀ (s : State) (f : Finding), s.live → findingFound f = true →
    (s.slc.phase = .main → (∀ pulse, f ≠ .ownSof pulse) →
      ∃ u, exec (.malformedFrame f) s = .next u ∧
        (match f with
         | .eof _ => u.slc.phase = .ready ∧ u.slc.recessive = 4
         | _ => u.slc.phase = .hunt ∧ u.slc.recessive = 0) ∧
        u.slc.rx = none ∧ u.slc.mark = .none ∧ (s.slc.sendingMain = true → u.slc.tx = none ∧ u.slc.driver = .released) ∧
        u.fc = { s.fc with recCount := min 255 (s.fc.recCount + 1) } ∧
        (∀ x, s.slc.tx = some x →
          SlotEnded .stake x s.slc.stake u.slc.stake ∧ SlotEnded .ask x s.slc.ask u.slc.ask ∧
          SlotEnded .notice x s.slc.notice u.slc.notice ∧ SlotEnded .muster x s.slc.muster u.slc.muster) ∧
        (s.slc.tx = none → u.slc.stake = s.slc.stake ∧ u.slc.ask = s.slc.ask ∧ u.slc.notice = s.slc.notice ∧
          u.slc.muster = s.slc.muster) ∧
        u.evu.raw.getLsbD 11 = decide (96 ≤ u.fc.recCount) ∧ OnlyChanges [.slc, .fc, .evu] s u) ∧
    (∀ pulse, f = .ownSof pulse → s.slc.phase = .ready → s.slc.mark = .stopped → s.slc.tx = none →
      ∃ u, exec (.malformedFrame f) s = .next u ∧
        u.slc = { s.slc with phase := .hunt, recessive := 0, rx := none, mark := .none } ∧
        u.fc = { s.fc with recCount := min 255 (s.fc.recCount + 1) } ∧ OnlyChanges [.slc, .fc, .evu] s u)

/-! ### Own main parts -/

/-- The own NOTICE completes: slot emptied, spacing 0, report timer P, the captured triple and flags become the reported ones,
TEC and REC fall by 1; the deferred request is clear unless the evaluation that follows asks again (R72, R77, R28, R147). -/
def Obligations.OwnNoticeCompletes : Prop :=
  ∀ (s : State) (src tgt : Byte) (lum : Rgb (BitVec 16)) (flags : Byte) (p : Params), s.live →
    s.slc.tx = some (.main ⟨src, tgt, .notice lum flags⟩) → s.slc.phase = .main → s.slc.mark = .asSent →
    s.fc.link = .active → s.sid.st = .run → s.csto.loaded = some p →
    ∃ u, exec .ownNoticeComplete s = .next u ∧ WindowOpened ⟨src, tgt, .notice lum flags⟩ true u ∧ u.slc.tx = none ∧
      u.slc.notice.content = s.slc.notice.held ∧ u.slc.spacing = 0 ∧ u.slc.reportTimer = some p.period ∧
      u.lest = { s.lest with lRep := some (lum.map BitVec.toNat), flagsRep := some flags } ∧
      (u.lest.significant = false → u.slc.deferred = false) ∧
      (u.lest.significant = true → s.slc.notice.held = none → u.slc.deferred = true) ∧
      u.fc = { s.fc with tec := s.fc.tec - 1, recCount := s.fc.recCount - 1 } ∧
      u.slc.stake = s.slc.stake ∧ u.slc.ask = s.slc.ask ∧ u.slc.muster = s.slc.muster ∧
      OnlyChanges [.slc, .fc, .lest, .evu] s u

/-- The own ASK, STAKE or MUSTER completes: its slot empties (or takes the content held for after it), its window opens, TEC
and REC fall by 1; an ASK sets outcome awaited (R72, R73, R121, R147). -/
def Obligations.OwnRequestsComplete : Prop :=
  ∀ (s : State) (src tgt : Byte), s.live → s.slc.phase = .main → s.slc.mark = .asSent → s.fc.link = .active →
    (∀ sel, s.slc.tx = some (.main ⟨src, tgt, .ask sel⟩) →
      ∃ u, exec .ownAskComplete s = .next u ∧ WindowOpened ⟨src, tgt, .ask sel⟩ true u ∧ u.slc.tx = none ∧
        u.slc.ask = ⟨s.slc.ask.held, false, none⟩ ∧
        u.ptab = { s.ptab with awaited := true, askTarget := s.slc.ask.held.map AskReq.target } ∧
        u.fc = { s.fc with tec := s.fc.tec - 1, recCount := s.fc.recCount - 1 } ∧ u.slc.stake = s.slc.stake ∧
        u.slc.notice = s.slc.notice ∧ u.slc.muster = s.slc.muster ∧ OnlyChanges [.slc, .fc, .ptab, .evu] s u) ∧
    (∀ uid mode, s.slc.tx = some (.main ⟨src, tgt, .stake uid mode⟩) →
      ∃ u, exec .ownStakeComplete s = .next u ∧ WindowOpened ⟨src, tgt, .stake uid mode⟩ true u ∧ u.slc.tx = none ∧
        u.slc.stake = ⟨s.slc.stake.held, false, none⟩ ∧
        u.fc = { s.fc with tec := s.fc.tec - 1, recCount := s.fc.recCount - 1 } ∧ u.slc.ask = s.slc.ask ∧
        u.slc.notice = s.slc.notice ∧ u.slc.muster = s.slc.muster ∧ OnlyChanges [.slc, .fc, .evu] s u) ∧
    (∀ start, s.slc.tx = some (.main ⟨src, tgt, .muster start⟩) →
      ∃ u, exec .ownMusterComplete s = .next u ∧ WindowOpened ⟨src, tgt, .muster start⟩ true u ∧ u.slc.tx = none ∧
        u.slc.muster = ⟨s.slc.muster.held, false, none⟩ ∧
        u.fc = { s.fc with tec := s.fc.tec - 1, recCount := s.fc.recCount - 1 } ∧ u.slc.stake = s.slc.stake ∧
        u.slc.ask = s.slc.ask ∧ u.slc.notice = s.slc.notice ∧ OnlyChanges [.slc, .fc, .evu] s u)

/-! ### Main parts of other stations -/

/-- Another station's NOTICE makes its source's slot FRESH with the reported triple and flags and both ages 0, SELF apart; no
other slot changes, and the engine takes the contribution (R78, R110, R118, R126, R127). In every link state REC falls by 1; TEC
falls by 1 in QUIET alone, and below 96 the station is ACTIVE again, with the waiting choice made (R93, R147, R148, R150). A flag
that the recompute changes is evaluated for an early request (R30; once: DEDUCED, log 13). Before loading ends a main part of any
kind moves only the counts and opens its window: it is delivered to no block and draws no reply (R87). -/
def Obligations.NoticeMakesTheSlotFresh : Prop :=
  ∀ s : State, s.receiving →
    (∀ (a : Addr) (lum : Rgb (BitVec 16)) (flags : Byte), s.csto.loaded.isSome →
      ∃ u, exec (.noticeReceived (addrByte a) lum flags) s = .next u ∧
        WindowOpened ⟨addrByte a, 62, .notice lum flags⟩ false u ∧
        u.ptab.slots.get a = (if s.ptab.slots.get a = .self then .self else .fresh (lum.map BitVec.toNat) flags 0 0) ∧
        (∀ b : Addr, b ≠ a → u.ptab.slots.get b = s.ptab.slots.get b) ∧ CountsFall s u ∧
        (∀ p, s.csto.loaded = some p → EngineWorks p s u) ∧ Evaluated s.slc s u ∧
        (s.sid.own ≠ some a → s.sid.search = none ∨ u.fc.link = s.fc.link → u.sid = s.sid) ∧
        (u.fc.link ≠ s.fc.link → WaitingChoiceMade s u) ∧
        OnlyChanges [.slc, .fc, .ptab, .sid, .lest, .tge, .evu] s u) ∧
    (∀ c f, mainPart c = some f → f.malformed = false → s.csto.loaded = none →
      ∃ u, exec c s = .next u ∧ WindowOpened f false u ∧ u.ptab.slots = s.ptab.slots ∧ CountsFall s u ∧
        u.slc.tx = s.slc.tx ∧ (s.sid.search = none → u.sid = s.sid) ∧ OnlyChanges [.slc, .fc, .ptab, .sid, .evu] s u)

/-- A main part of any kind whose source is the own address, received in RUN in any link state. With re-assertion clear:
DUP_ADDRESS, re-assertion pending, and a HELD STAKE for the own address in the empty STAKE slot. With it pending the detection
merges (R103). A HELD STAKE that the holder yields to at the same EOB ends the re-assertion at once (R104); that the
duplicate test comes before this yield, so that it gives DUP_ADDRESS too, is DEDUCED (logs 12, 17). -/
def Obligations.DuplicateStartsReassertion : Prop :=
  ∀ (s : State) (o : Addr) (c : Instr) (f : Frame), s.receiving → s.sid.st = .run → s.sid.own = some o →
    s.csto.loaded.isSome → mainPart c = some f → f.malformed = false → f.src = addrByte o →
    ∃ u, exec c s = .next u ∧ WindowOpened f false u ∧
      (s.sid.reassert = false → u.evu.latched.getLsbD 15 = true) ∧ u.evu.raw.getLsbD 15 = false ∧
      (¬YieldsTo s o f → u.sid = { s.sid with reassert := true } ∧
        (s.sid.reassert = false → s.slc.stake = .empty → u.slc.stake = ⟨some ⟨o, .held, s.sid.uid⟩, false, none⟩) ∧
        (s.sid.reassert = true → u.slc.stake = s.slc.stake ∧
          u.evu.latched.getLsbD 15 = s.evu.latched.getLsbD 15)) ∧
      (YieldsTo s o f → u.sid.own = none ∧ u.sid.reassert = false ∧ (s.slc.stake = .empty → u.slc.stake = .empty)) ∧
      OnlyChanges [.slc, .fc, .ptab, .sid, .lest, .tge, .csto, .evu] s u

/-- Another station's MUSTER is a sign of life of its source, also where that is the own address (R80, R87, R103, R111). A holder
in RUN and ACTIVE at or above the start address sends its own address at the first position; one that was not ACTIVE at that EOB
sends nothing, also where the main part makes it ACTIVE (R80, R150). In LISTEN, CLAIMING and UNADDRESSED the MUSTER is a sign of
life alone (R92, R105, R111). -/
def Obligations.MusterDrawsTheOwnByte : Prop :=
  (∀ (s : State) (a : Addr) (start : Byte), s.receiving → s.csto.loaded.isSome → s.sid.st ≠ .run →
    ∃ u, exec (.musterReceived (addrByte a) start) s = .next u ∧
      WindowOpened ⟨addrByte a, 62, .muster start⟩ false u ∧ HeardAlone a s u) ∧
  ∀ (s : State) (a o : Addr) (start : Byte), s.receiving → s.sid.st = .run → s.sid.own = some o → s.csto.loaded.isSome →
    ∃ u, exec (.musterReceived (addrByte a) start) s = .next u ∧
      WindowOpened ⟨addrByte a, 62, .muster start⟩ false u ∧
      u.ptab.slots.get a = (s.ptab.slots.get a).life ∧
      (∀ b : Addr, b ≠ a → u.ptab.slots.get b = s.ptab.slots.get b) ∧
      (s.fc.link = .active ∧ start.toNat ≤ o.val →
        u.slc.tx = some (.muster (addrByte o)) ∧ u.slc.musterReply = .waiting) ∧
      (s.fc.link ≠ .active ∨ o.val < start.toNat → u.slc.tx = s.slc.tx ∧ u.slc.musterReply = s.slc.musterReply) ∧
      CountsFall s u ∧ TestedForDuplicate (addrByte a) o s u ∧ OnlyChanges [.slc, .fc, .ptab, .sid, .evu] s u

/-- A holder in RUN and ACTIVE contests a FRESH STAKE for its address, and a HELD one from a UID not lower than its own; to a
HELD STAKE from a lower UID it yields at once: CLAIMING, no own address, its slot EMPTY, ADDR_YIELD, no STAKE pending, nothing sent,
and no candidate: the choice over the 47 others keeps the next address as its start and waits for EOF (R93, R98, R99, R101). The
source may be 63 or any address, the own one included (R59, R103). A station in another identity state, in QUIET or DETACHED, or without
the target's address sends nothing at that EOB, and keeps every slot and its own address: EOF decides (R87, R97, R98, R100). -/
def Obligations.HolderContestsOrYields : Prop :=
  (∀ (s : State) (c : Addr) (src : Byte) (uid : BitVec 64) (mode : Byte), s.receiving → s.csto.loaded.isSome →
    (src = 63 ∨ src.toNat < 48) → (s.sid.st ≠ .run ∨ s.fc.link ≠ .active ∨ s.sid.own ≠ some c) →
    ∃ u, exec (.stakeReceived src (addrByte c) uid mode) s = .next u ∧
      WindowOpened ⟨src, addrByte c, .stake uid mode⟩ false u ∧ DrawsNoReply src s u ∧ u.ptab.slots = s.ptab.slots) ∧
  ∀ (s : State) (o : Addr) (src : Byte) (uid : BitVec 64) (mode : Byte), s.receiving → s.holder o →
    (src = 63 ∨ src.toNat < 48) →
    ∃ u, exec (.stakeReceived src (addrByte o) uid mode) s = .next u ∧
      WindowOpened ⟨src, addrByte o, .stake uid mode⟩ false u ∧
      (mode ≠ 1 ∨ s.sid.uid.toNat ≤ uid.toNat →
        u.slc.tx = some (.contest (addrByte o)) ∧ TestedForDuplicate src o s u ∧ u.ptab = s.ptab) ∧
      (mode = 1 ∧ uid.toNat < s.sid.uid.toNat →
        u.sid.own = none ∧ u.sid.st = .claiming ∧ u.sid.decision = .yielding ∧ u.sid.attempts = 0 ∧
          u.sid.candidate = none ∧ u.sid.search = some (addrAfter o 1, false) ∧ u.sid.reassert = false ∧
          u.ptab.slots.get o = .empty ∧ (∀ b : Addr, b ≠ o → u.ptab.slots.get b = s.ptab.slots.get b) ∧
          u.evu.latched.getLsbD 13 = true ∧ u.slc.tx = none ∧ u.slc.stake.content = none ∧
          u.slc.reportTimer = none ∧ u.slc.notice = .empty ∧ u.slc.muster = .empty ∧ u.slc.musterRun = false ∧
          u.slc.deferred = false) ∧
      u.fc = { s.fc with recCount := s.fc.recCount - 1 } ∧ OnlyChanges [.slc, .fc, .ptab, .sid, .evu] s u

/-- The answer of the holder of `o` to the asker at `a` has been captured and is being sent, and nothing but the signalling, the
counts, the asker's sign of life, the duplicate test and the event unit has moved. -/
def AnswerGiven (a o : Addr) (status : Byte) (data : List Byte) (clears : Option EventSet) (s u : State) : Prop :=
  u.slc.tx = some (.answer (status :: data ++ [crc8 (status :: data)]) clears) ∧
    u.slc.capture = some ⟨status :: data ++ [crc8 (status :: data)], clears⟩ ∧
    u.ptab.slots.get a = (s.ptab.slots.get a).life ∧
    (∀ b : Addr, b ≠ a → u.ptab.slots.get b = s.ptab.slots.get b) ∧
    u.fc = { s.fc with recCount := s.fc.recCount - 1 } ∧ TestedForDuplicate (addrByte a) o s u ∧
    OnlyChanges [.slc, .fc, .ptab, .sid, .evu] s u

/-- The target of an ASK in RUN and ACTIVE captures and sends the item that the selector names, from the state at that EOB (R83,
R84, R171, R177), whatever the asker's address, the own one included (R103). The REC that STATUS and STATUS_CLEAR carry is the one
after this main part's own fall, and for an asker with the own address DUP_ADDRESS comes before the capture: the latched set they
carry has it, and the clearing of the marks takes its mark (R68, R83, R103, R177; DEDUCED: log 12). An ASK for another target, or
at a station that is not in RUN and ACTIVE at that EOB, draws no answer and is a sign of life alone, also where the main part
makes the station ACTIVE (R83, R87, R92, R105, R111, R150). -/
def Obligations.AskIsAnswered : Prop :=
  (∀ (s : State) (a : Addr) (tgt sel : Byte) (c : Instr), s.receiving → s.csto.loaded.isSome →
    mainPart c = some ⟨addrByte a, tgt, .ask sel⟩ → tgt.toNat < 48 →
    (s.sid.st ≠ .run ∨ s.fc.link ≠ .active ∨ ∀ o, s.sid.own = some o → tgt ≠ addrByte o) →
    ∃ u, exec c s = .next u ∧ WindowOpened ⟨addrByte a, tgt, .ask sel⟩ false u ∧ HeardAlone a s u) ∧
  ∀ (s : State) (a o : Addr) (l : Rgb Nat) (tg md : Rgb Nat), s.receiving → s.holder o → RawSetInv s →
    s.lest.l = some l → s.tge.target = some tg → s.tge.median = some md →
    (∃ u, exec (.capability (addrByte a) (addrByte o)) s = .next u ∧
      AnswerGiven a o 0x00 (rgbBytes l ++ [s.lest.ownFlags]) none s u) ∧
    (∃ u, exec (.status (addrByte a) (addrByte o)) s = .next u ∧
      AnswerGiven a o 0x00 (bytes16 u.evu.raw ++ bytes16 u.evu.latched ++
        [3, 0, BitVec.ofNat 8 s.fc.tec, BitVec.ofNat 8 (s.fc.recCount - 1)]) none s u ∧
        u.evu.marks = if a = o ∧ s.sid.reassert = false then s.evu.marks ||| 0x8000 else s.evu.marks) ∧
    (∃ u, exec (.statusClear (addrByte a) (addrByte o)) s = .next u ∧
      AnswerGiven a o 0x00 (bytes16 u.evu.raw ++ bytes16 u.evu.latched ++
        [3, 0, BitVec.ofNat 8 s.fc.tec, BitVec.ofNat 8 (s.fc.recCount - 1)]) (some u.evu.latched) s u ∧
        u.evu.marks = 0) ∧
    (∃ u, exec (.identity (addrByte a) (addrByte o)) s = .next u ∧
      AnswerGiven a o 0x00 (bytes64 s.sid.uid ++ [addrByte o]) none s u) ∧
    (∃ u, exec (.gains (addrByte a) (addrByte o)) s = .next u ∧
      AnswerGiven a o 0x00 (rgbBytes s.tge.applied ++ [BitVec.ofNat 8 s.tge.size, marksByte s.tge.marks,
        (if s.tge.floored then 1 else 0) ||| (if s.tge.belowFloor then 2 else 0)]) none s u) ∧
    (∃ u, exec (.targets (addrByte a) (addrByte o)) s = .next u ∧
      AnswerGiven a o 0x00 (rgbBytes tg ++ rgbBytes md) none s u) ∧
    (∃ u, exec (.storeState (addrByte a) (addrByte o)) s = .next u ∧
      AnswerGiven a o 0x00 [if s.csto.burn.isSome then 1 else 0, if s.csto.latch then 1 else 0, s.csto.lastResult.code,
        s.csto.lockMarks] none s u) ∧
    (∀ k : BitVec 4, ∃ u, exec (.page (addrByte a) (addrByte o) k) s = .next u ∧
      (if s.csto.burn.isSome then AnswerGiven a o 0x01 [] none s u
       else AnswerGiven a o 0x00 (s.csto.array.readMany (8 * k.toNat) 8) none s u)) ∧
    (∀ sel : Byte, 6 < sel.toNat → (sel.toNat < 0x80 ∨ 0x8F < sel.toNat) →
      ∃ u, exec (.unknownSelector (addrByte a) (addrByte o) sel) s = .next u ∧ AnswerGiven a o 0x02 [] none s u)

/-- The store has decided a FIXTURE command with this status, which is being sent, and stands as `c`. -/
def FixtureAnswered (a o : Addr) (status : Byte) (c : Csto) (s u : State) : Prop :=
  u.csto = c ∧ u.slc.tx = some (.status status) ∧ u.ptab.slots.get a = (s.ptab.slots.get a).life ∧
    (∀ b : Addr, b ≠ a → u.ptab.slots.get b = s.ptab.slots.get b) ∧
    u.fc = { s.fc with recCount := s.fc.recCount - 1 } ∧ TestedForDuplicate (addrByte a) o s u ∧
    OnlyChanges [.slc, .fc, .ptab, .sid, .csto, .evu] s u

/-- FIXTURE commands at a holder (R165 to R170). The shared checks turn away, in their order: REFUSED with the fixture enable
clear, UNKNOWN for another code, BUSY while BURNING; nothing is done then. In a READY store ARM and DISARM set and clear the
latch, and BURN and LOCK pass their own checks in their order. In QUIET and DETACHED the store decides alike, and no status byte
is sent (R152, R165). A FIXTURE for another target is a sign of life alone, in every identity state (R87, R92, R105, R111, R165). -/
def Obligations.FixtureCommandsAreDecided : Prop :=
  (∀ (s : State) (a : Addr) (tgt code : Byte) (rest : List Byte) (c : Instr), s.receiving → s.csto.loaded.isSome →
    mainPart c = some ⟨addrByte a, tgt, .fixture (code :: rest)⟩ → tgt.toNat < 48 → rest.length ≤ 9 →
    (∀ o, s.sid.own = some o → tgt ≠ addrByte o) →
    ∃ u, exec c s = .next u ∧ WindowOpened ⟨addrByte a, tgt, .fixture (code :: rest)⟩ false u ∧ HeardAlone a s u) ∧
  (∀ (s : State) (a o : Addr) (rest : List Byte), s.receiving → s.holder o → rest.length ≤ 9 →
    (∀ c, (c = .arm (addrByte a) (addrByte o) rest ∨ c = .disarm (addrByte a) (addrByte o) rest ∨
        c = .burn (addrByte a) (addrByte o) rest ∨ c = .lock (addrByte a) (addrByte o) rest) →
      (s.csto.fixtureEnable = false → ∃ u, exec c s = .next u ∧ FixtureAnswered a o 0x07 s.csto s u) ∧
      (s.csto.fixtureEnable = true → s.csto.burn.isSome → ∃ u, exec c s = .next u ∧ FixtureAnswered a o 0x02 s.csto s u)) ∧
    (∀ code : Byte, code = 0 ∨ 4 < code.toNat →
      ∃ u, exec (.unknownCommand (addrByte a) (addrByte o) code rest) s = .next u ∧
        FixtureAnswered a o (if s.csto.fixtureEnable then 0x08 else 0x07) s.csto s u) ∧
    (s.csto.fixtureEnable = true → s.csto.burn = none →
      (∃ u, exec (.arm (addrByte a) (addrByte o) rest) s = .next u ∧
        FixtureAnswered a o 0x00 { s.csto with latch := true } s u) ∧
      (∃ u, exec (.disarm (addrByte a) (addrByte o) rest) s = .next u ∧
        FixtureAnswered a o 0x00 { s.csto with latch := false } s u) ∧
      (s.csto.latch = false →
        (∃ u, exec (.burn (addrByte a) (addrByte o) rest) s = .next u ∧ FixtureAnswered a o 0x03 s.csto s u) ∧
        ∃ u, exec (.lock (addrByte a) (addrByte o) rest) s = .next u ∧ FixtureAnswered a o 0x03 s.csto s u) ∧
      (s.csto.latch = true → rest.length ≤ 1 →
        ∃ u, exec (.burn (addrByte a) (addrByte o) rest) s = .next u ∧ FixtureAnswered a o 0x04 s.csto s u) ∧
      (∀ off data, s.csto.latch = true → rest = off :: data → 1 ≤ data.length →
        ∃ u, exec (.burn (addrByte a) (addrByte o) rest) s = .next u ∧
          (if 127 < off.toNat + data.length then FixtureAnswered a o 0x04 s.csto s u
           else if ∃ k, k < data.length ∧ lockedByte (s.csto.array.read 127) (off.toNat + k) = true then
             FixtureAnswered a o 0x05 s.csto s u
           else FixtureAnswered a o 0x01 { s.csto with burn := some (.bytes off.toNat data 0) } s u)) ∧
      (s.csto.latch = true → rest = [] →
        ∃ u, exec (.lock (addrByte a) (addrByte o) rest) s = .next u ∧ FixtureAnswered a o 0x04 s.csto s u) ∧
      (∀ marks more, s.csto.latch = true → rest = marks :: more →
        ∃ u, exec (.lock (addrByte a) (addrByte o) rest) s = .next u ∧
          (if marks = 0 ∨ 8 ≤ marks.toNat then FixtureAnswered a o 0x04 s.csto s u
           else FixtureAnswered a o 0x01 { s.csto with burn := some (.lock marks (s.csto.array.read 127)) } s u)))) ∧
  ∀ (s : State) (a o : Addr) (code : Byte) (rest : List Byte) (c : Instr), s.receiving → s.sid.st = .run →
    s.sid.own = some o → s.csto.loaded.isSome → s.fc.link ≠ .active → rest.length ≤ 9 →
    mainPart c = some ⟨addrByte a, addrByte o, .fixture (code :: rest)⟩ →
    ∃ u v, exec c s = .next u ∧ exec c (s.setFc { s.fc with link := .active }) = .next v ∧ u.csto = v.csto ∧
      u.slc.tx = s.slc.tx ∧ u.ptab.slots.get a = (s.ptab.slots.get a).life ∧ CountsFall s u ∧
      TestedForDuplicate (addrByte a) o s u ∧ OnlyChanges [.slc, .fc, .ptab, .sid, .csto, .evu] s u

/-- A byte's burn ends: the byte is its old value OR its data, but for bits the cells did not take, and no other byte changes;
after the last one the result is DONE exactly when every byte reads back as its data, the latch clears and the store is READY.
A LOCK ends with byte 127 OR its marks, DONE (R168, R169; log 16). -/
def Obligations.BurningSetsBits : Prop :=
  ∀ s : State, s.live → s.csto.array.wf = true →
    (∀ (off : Nat) (data : List Byte) (i : Nat) (missed : Byte), s.csto.burn = some (.bytes off data i) →
      i < data.length →
      ∃ u, exec (.burnByteComplete missed) s = .next u ∧
        u.csto.array.read (off + i) = s.csto.array.read (off + i) ||| (data.getD i 0 &&& ~~~missed) ∧
        (∀ b, b ≠ off + i → u.csto.array.read b = s.csto.array.read b) ∧
        (i + 1 < data.length → u.csto.burn = some (.bytes off data (i + 1)) ∧ u.csto.latch = s.csto.latch ∧
          u.csto.lastResult = s.csto.lastResult) ∧
        (i + 1 = data.length → u.csto.burn = none ∧ u.csto.latch = false ∧
          u.csto.lastResult =
            (if ∀ k, k < data.length → u.csto.array.read (off + k) = data.getD k 0 then .done else .verify)) ∧
        u.csto.loaded = s.csto.loaded ∧ u.csto.fixtureEnable = s.csto.fixtureEnable ∧ OnlyChanges [.csto] s u) ∧
    (∀ marks before : Byte, s.csto.burn = some (.lock marks before) →
      ∃ u, exec .lockComplete s = .next u ∧ u.csto.array.read 127 = s.csto.array.read 127 ||| marks ∧
        (∀ b, b ≠ 127 → u.csto.array.read b = s.csto.array.read b) ∧ u.csto.burn = none ∧ u.csto.latch = false ∧
        u.csto.lastResult = .done ∧ u.csto.loaded = s.csto.loaded ∧
        u.csto.fixtureEnable = s.csto.fixtureEnable ∧ OnlyChanges [.csto] s u)

/-! ### Reply windows -/

/-- Another station's reply in an allowed position takes its place: from the end of loading on a contest or muster byte of 0..47 is
a sign of life; an answer is kept with its check for the own ASK, a status byte goes to no block; a muster byte is counted at the
MUSTER's sender, and whatever its value a station still waiting tries again while positions are left (R66, R80, R81, R82, R88). A
contest or muster byte of 48..255, and before loading ends one of any value, takes its position, and a muster byte is counted at
the sender, without being a sign of life (R81, R88). What the window keeps of a block that ends before loading ends is DEDUCED
(log 41). -/
def Obligations.RepliesAreDelivered : Prop :=
  ∀ (s : State) (w : Window), s.awaitsBlock w →
    (∀ a : Addr, w.frame.body.kind = .stake → s.csto.loaded.isSome →
      ∃ u, exec (.contestByteReceived (addrByte a)) s = .next u ∧ u.slc.window = some w.withBlock ∧
        u.ptab.slots.get a = (s.ptab.slots.get a).life ∧
        (∀ b : Addr, b ≠ a → u.ptab.slots.get b = s.ptab.slots.get b) ∧ OnlyChanges [.slc, .ptab] s u) ∧
    (∀ v : Byte, w.frame.body.kind = .stake → 48 ≤ v.toNat ∨ s.csto.loaded = none →
      ∃ u, exec (.contestByteReceived v) s = .next u ∧ u.slc.window = some w.withBlock ∧ OnlyChanges [.slc] s u) ∧
    (∀ a : Addr, w.frame.body.kind = .muster → s.csto.loaded.isSome →
      ∃ u, exec (.musterByteReceived (addrByte a)) s = .next u ∧
        u.slc.window = some (if w.own then { w.withBlock with musterCount := w.musterCount + 1,
                                                              lastMuster := some (addrByte a) } else w.withBlock) ∧
        u.ptab.slots.get a = (s.ptab.slots.get a).life ∧
        (∀ b : Addr, b ≠ a → u.ptab.slots.get b = s.ptab.slots.get b) ∧ NextTry w s u ∧ OnlyChanges [.slc, .ptab] s u) ∧
    (∀ v : Byte, w.frame.body.kind = .muster → 48 ≤ v.toNat ∨ s.csto.loaded = none →
      ∃ u, exec (.musterByteReceived v) s = .next u ∧
        u.slc.window = some (if w.own then { w.withBlock with musterCount := w.musterCount + 1, lastMuster := some v }
                             else w.withBlock) ∧
        NextTry w s u ∧ OnlyChanges [.slc] s u) ∧
    (∀ block : List Byte, w.frame.body.kind = .ask → 1 ≤ block.length → block.length ≤ 16 →
      ∃ u, exec (.answerBlockReceived block) s = .next u ∧
        u.slc.window = some (if w.own then { w.withBlock with answer := some (answerCheck block, block) }
                             else w.withBlock) ∧
        OnlyChanges [.slc] s u) ∧
    (∀ v : Byte, w.frame.body.kind = .fixture →
      ∃ u, exec (.fixtureStatusByteReceived v) s = .next u ∧ u.slc.window = some w.withBlock ∧ OnlyChanges [.slc] s u)

/-- A reply block in error stops reply processing for the window and counts one receive error; an own reply in it is stopped, a
station in a muster reply is done, and nothing else of the window changes (R66, R74, R80, R148). An edge 1 to 2 bit times after
the own reply puts that block in error, in its position (R66; DEDUCED: log 31). A block beyond the number allowed, or
after processing has stopped, is ignored whole; the receiver follows its gaps (R51, R65, R66). That the block in error is counted
among those seen and an ignored one is not (log 39), and that an own reply whose read-back has not come first ends with no bit error
(log 38), is the model's choice. -/
def Obligations.ReplyErrorStopsTheWindow : Prop :=
  ∀ (s : State) (w : Window) (f : ReplyFinding), s.live → s.slc.phase = .window → s.slc.window = some w →
    (w.running = true → w.seen < w.frame.body.kind.blocksAllowed → replyFindingFound w.frame.body.kind f = true →
      ∃ u, exec (.replyBlockError ⟨w.seen + 1, f⟩) s = .next u ∧
        u.slc.window =
          some { w with running := false, seen := w.seen + 1, first := if w.seen = 0 then .error else w.first } ∧
        u.slc.recessive = findingRecessive f ∧ u.slc.musterReply ≠ .waiting ∧ (s.slc.sendingReply = true → u.slc.tx = none) ∧
        u.fc = { s.fc with recCount := min 255 (s.fc.recCount + 1) } ∧
        u.slc.stake = s.slc.stake ∧ u.slc.ask = s.slc.ask ∧ u.slc.notice = s.slc.notice ∧ u.slc.muster = s.slc.muster ∧
        OnlyChanges [.slc, .fc, .evu] s u) ∧
    (∀ gap, w.running = true → s.slc.tx = none → s.slc.mark = .asSent → 1 ≤ w.seen → w.seen ≤ w.frame.body.kind.blocksAllowed →
      4000 ≤ gap → gap < 8000 →
      ∃ u, exec (.replyBlockError ⟨w.seen, .edge gap⟩) s = .next u ∧
        u.slc.window = some { w with running := false, first := if w.seen = 1 then .error else w.first } ∧
        u.slc.recessive = 0 ∧ u.slc.musterReply ≠ .waiting ∧ u.fc = { s.fc with recCount := min 255 (s.fc.recCount + 1) } ∧
        OnlyChanges [.slc, .fc, .evu] s u) ∧
    ∀ pos, w.running = false ∨ w.frame.body.kind.blocksAllowed < pos →
      ∃ u, exec (.replyBlockError ⟨pos, f⟩) s = .next u ∧
        u.slc = { s.slc with recessive := u.slc.recessive, mark := u.slc.mark } ∧
        (w.running = false ∨ w.frame.body.kind.blocksAllowed ≤ w.seen → s.slc.tx = none →
          u.slc.recessive = findingRecessive f) ∧
        OnlyChanges [.slc] s u

/-- The own reply completes: it takes its position and is delivered to no one. A contest makes the window decision contested; a
muster byte is done; a STATUS_CLEAR answer clears each captured latched entry whose arisal mark is clear, and no other
(R67, R80, R85, R98, R178). -/
def Obligations.OwnReplyCompletes : Prop :=
  ∀ (s : State) (w : Window) (x : Sending), s.live → s.slc.phase = .window → s.slc.window = some w → w.running = true →
    w.seen < w.frame.body.kind.blocksAllowed → s.slc.tx = some x → (∀ f, x ≠ .main f) →
    ∃ u, exec .ownReplyComplete s = .next u ∧ u.slc.tx = none ∧ u.slc.driver = .released ∧
      u.slc.window = some { w with seen := w.seen + 1 } ∧
      u.sid = (match x with
        | .contest _ => { s.sid with decision := .contested }
        | _ => s.sid) ∧
      (∀ v, x = .muster v → u.slc.musterReply ≠ .waiting) ∧
      (match x with
       | .answer _ (some captured) =>
         ∀ k, k < 16 → (u.evu.latched.getLsbD k = true ↔
           s.evu.latched.getLsbD k = true ∧ ¬(captured.getLsbD k = true ∧ s.evu.marks.getLsbD k = false))
       | _ => u.evu = s.evu) ∧
      u.evu.raw = s.evu.raw ∧ u.evu.marks = s.evu.marks ∧ OnlyChanges [.slc, .sid, .evu] s u

/-- EOF closes the frame: READY, no window, no answer capture, no muster reply, no window decision (R54, R55, R68, R88). That no
frame is in reception from EOF on is the model's choice (log 40). Where the window decides nothing (a NOTICE's, a FIXTURE's, another
station's ASK or MUSTER, and every one before loading ends) the close is all: peer table, identity, outbound slots, muster run,
report timer and estimator stay (R82, R87, R88); nothing is evaluated for an early request, views and engine being true (R30). -/
def Obligations.EofClosesTheFrame : Prop :=
  ∀ (s : State) (w : Window), s.live → s.slc.phase = .window → s.slc.window = some w →
    ∃ u, exec .frameEof s = .next u ∧ u.slc.phase = .ready ∧ u.slc.window = none ∧ u.slc.rx = none ∧ u.slc.tx = none ∧
      u.slc.capture = none ∧ u.slc.musterReply = .notReplying ∧ u.sid.decision = .none ∧
      (s.slc.sendingMain = false → w.decides = false ∨ s.csto.loaded = none →
        u.ptab = s.ptab ∧ u.sid = { s.sid with decision := .none } ∧ u.slc.stake = s.slc.stake ∧ u.slc.ask = s.slc.ask ∧
          u.slc.muster = s.slc.muster ∧ u.slc.musterRun = s.slc.musterRun ∧ u.slc.reportTimer = s.slc.reportTimer ∧
          u.slc.spacing = s.slc.spacing ∧
          (OwnFlagsInv s → EngineInv s → u.slc.notice = s.slc.notice ∧ u.slc.deferred = s.slc.deferred ∧ u.lest = s.lest ∧
            u.tge = s.tge)) ∧
      OnlyChanges [.slc, .sid, .ptab, .evu, .lest, .tge] s u

/-- At the EOF of its own STAKE for the candidate, an uncontested claimant takes the address in every link state: RUN, slot SELF,
report timer at (A × 7) mod P, muster run from 0; a contested one gives it up and counts the attempt, with the choice from the next
address over the 47 others made, or kept for ACTIVE where the link state is another (R75, R79, R93, R95, R96). A holder in RUN with
re-assertion pending keeps the address of its own uncontested STAKE, and re-assertion clears; it yields it after a contested one:
no own address, its slot EMPTY, ADDR_YIELD, and the choice from the next address over the 47 others, made or kept likewise (R93,
R101, R104). The EOF of an own STAKE that is neither changes no slot and nothing of identity (R95, R104). -/
def Obligations.ClaimIsDecidedAtEof : Prop :=
  ∀ (s : State) (w : Window) (c : Addr) (uid : BitVec 64) (mode : Byte) (p : Params), s.live → s.slc.phase = .window →
    s.slc.window = some w → w.own = true → w.frame = ⟨63, addrByte c, .stake uid mode⟩ → s.csto.loaded = some p →
    s.sid.decision = .none →
    (s.sid.st = .run → s.sid.own = some c → s.sid.reassert = true →
      ∃ u, exec .frameEof s = .next u ∧
        (w.first = .nothing → u.sid = { s.sid with reassert := false } ∧ u.ptab = s.ptab) ∧
        (w.first ≠ .nothing → u.sid.own = none ∧ u.sid.reassert = false ∧ u.sid.attempts = 0 ∧
          u.ptab.slots.get c = .empty ∧ (∀ b : Addr, b ≠ c → u.ptab.slots.get b = s.ptab.slots.get b) ∧
          u.evu.latched.getLsbD 13 = true ∧ u.slc.reportTimer = none ∧ u.slc.musterRun = false ∧ ChoosesAfterYield c s u) ∧
        OnlyChanges [.slc, .sid, .ptab, .evu, .lest, .tge] s u) ∧
    (s.sid.st = .claiming → s.sid.candidate = some c → s.slc.stake = .empty → s.slc.muster = .empty →
      ∃ u, exec .frameEof s = .next u ∧
        (w.first = .nothing →
          u.sid.st = .run ∧ u.sid.own = some c ∧ u.sid.candidate = none ∧ u.sid.search = none ∧ u.sid.attempts = 0 ∧
            u.ptab.slots.get c = .self ∧ (∀ b : Addr, b ≠ c → u.ptab.slots.get b = s.ptab.slots.get b) ∧
            u.slc.stake = .empty ∧ u.slc.reportTimer = some (c.val * 7 % p.period) ∧ u.slc.muster.content = some 0 ∧
            u.slc.musterRun = true) ∧
        (w.first ≠ .nothing → u.sid.own = s.sid.own ∧ u.sid.attempts = s.sid.attempts + 1 ∧ u.ptab.slots = s.ptab.slots ∧
          (¬ClaimEnds c s → GoesOnFrom c s u) ∧
          (ClaimEnds c s → u.sid.st = .unaddressed ∧ u.sid.candidate = none ∧ u.sid.search = none ∧ u.slc.stake = .empty)) ∧
        OnlyChanges [.slc, .sid, .ptab, .evu, .lest, .tge] s u) ∧
    (¬(s.sid.st = .claiming ∧ s.sid.candidate = some c) → ¬(s.sid.st = .run ∧ s.sid.own = some c ∧ s.sid.reassert = true) →
      ∃ u, exec .frameEof s = .next u ∧ u.sid = s.sid ∧ u.ptab = s.ptab ∧
        OnlyChanges [.slc, .sid, .ptab, .evu, .lest, .tge] s u)

/-- At the EOF of another station's uncontested STAKE a holder of its target that did not contest yields, with the choice from the
next address over the 47 others made, or kept for ACTIVE (R93, R100, R101), and the target slot ends EMPTY in every table; a
contested one changes no slot (R95, R100, R115). A claimant whose candidate the STAKE targets gives it up, contested or not, and
goes on from the address after it, with its pending STAKE replaced, or, where the choice waits for ACTIVE or UNADDRESSED is
entered, withdrawn (R93, R96, R97; the candidate that counts is the one it has at EOF: log 32); a STAKE for any other target
changes nothing of it (R97). A yield at the EOB has left its choice to this EOF (R99). In UNADDRESSED, entered at this EOF too, the
slot that turns EMPTY starts a claim (R105, R119). -/
def Obligations.UncontestedStakeFreesTheSlot : Prop :=
  ∀ (s : State) (w : Window) (c : Addr) (src : Byte) (uid : BitVec 64) (mode : Byte), s.live → s.slc.phase = .window →
    s.slc.window = some w → w.own = false → w.frame = ⟨src, addrByte c, .stake uid mode⟩ → s.csto.loaded.isSome →
    AddressInv s →
    ∃ u, exec .frameEof s = .next u ∧
      (s.sid.decision = .none → w.first = .nothing →
        u.ptab.slots.get c = .empty ∧ (∀ b : Addr, b ≠ c → u.ptab.slots.get b = s.ptab.slots.get b) ∧
          (s.sid.own = some c → u.sid.own = none ∧ u.sid.attempts = 0 ∧ u.sid.reassert = false ∧
            u.evu.latched.getLsbD 13 = true ∧ ChoosesAfterYield c s u) ∧
          (s.sid.own ≠ some c → u.sid.own = s.sid.own) ∧
          (s.sid.st = .unaddressed → s.slc.stake = .empty → s.ptab.slots.get c ≠ .empty → ClaimsFromSeed s u)) ∧
      (s.sid.decision ≠ .yielding → w.first ≠ .nothing ∨ s.sid.decision = .contested →
        u.ptab.slots = s.ptab.slots ∧ u.sid.own = s.sid.own) ∧
      (s.sid.decision = .none → s.sid.st = .claiming → s.sid.candidate = some c → s.slc.tx = none →
        s.slc.stake = ⟨some ⟨c, .fresh, s.sid.uid⟩, false, none⟩ →
        (¬ClaimEnds c s → u.sid.attempts = s.sid.attempts + 1 ∧ GoesOnFrom c s u) ∧
        (ClaimEnds c s →
          (w.first ≠ .nothing ∨ s.ptab.slots.get c = .empty →
            u.sid.st = .unaddressed ∧ u.sid.candidate = none ∧ u.sid.search = none ∧ u.slc.stake = .empty) ∧
          (w.first = .nothing → s.ptab.slots.get c ≠ .empty → ClaimsFromSeed s u))) ∧
      (s.sid.decision = .none → s.sid.st = .claiming → s.sid.candidate ≠ some c → s.slc.tx = none →
        u.sid = s.sid ∧ u.slc.stake = s.slc.stake) ∧
      (∀ start all, s.sid.decision = .yielding → s.sid.st = .claiming → s.sid.candidate = none →
        s.sid.search = some (start, all) → s.slc.stake = .empty → s.ptab.slots.get c = .empty →
        u.ptab.slots = s.ptab.slots ∧ u.sid.decision = .none ∧
        (s.fc.link = .active →
          (∀ n : Addr, s.ptab.firstFree start all = some n → u.sid.st = .claiming ∧ u.sid.candidate = some n ∧
            u.sid.search = none ∧ u.slc.stake = ⟨some ⟨n, .fresh, s.sid.uid⟩, false, none⟩) ∧
          (s.ptab.firstFree start all = none → u.sid.st = .unaddressed ∧ u.slc.stake = .empty)) ∧
        (s.fc.link ≠ .active → u.sid = { s.sid with decision := .none } ∧ u.slc.stake = .empty)) ∧
      OnlyChanges [.slc, .sid, .ptab, .evu, .lest, .tge] s u

/-- The own ASK and the own MUSTER at EOF. ASK (R82, R122): ANSWERED makes a HEARD target FRESH with the answered values; BAD and
SILENT raise its ask tries, up to 3; a target no longer HEARD is left alone; outcome awaited clears. MUSTER (R79): the run goes
on from V + 1 after sixteen blocks whose last value V calls for it, and ends otherwise. -/
def Obligations.OwnWindowsAreDecidedAtEof : Prop :=
  ∀ (s : State) (w : Window) (src : Byte), s.live → s.slc.phase = .window → s.slc.window = some w → w.own = true →
    s.csto.loaded.isSome →
    (∀ (a : Addr) (sel : Byte), w.frame = ⟨src, addrByte a, .ask sel⟩ →
      ∃ u, exec .frameEof s = .next u ∧ u.ptab.awaited = false ∧
        (∀ b : Addr, b ≠ a → u.ptab.slots.get b = s.ptab.slots.get b) ∧
        (match s.ptab.slots.get a with
         | .heard h tries =>
           (∀ block lum flags, w.answer = some (true, block) → capabilityOf? block = some (lum, flags) →
             u.ptab.slots.get a = .fresh lum flags 0 0) ∧
           ((w.answer = none ∨ (∃ block, w.answer = some (false, block)) ∨
               ∃ block, w.answer = some (true, block) ∧ capabilityOf? block = none) →
             u.ptab.slots.get a = .heard h (min 3 (tries + 1)))
         | x => u.ptab.slots.get a = x) ∧
        OnlyChanges [.slc, .sid, .ptab, .evu, .lest, .tge] s u) ∧
    (∀ start : Byte, w.frame = ⟨src, 62, .muster start⟩ → s.slc.musterRun = true → s.slc.muster = .empty →
      s.slc.tx = none →
      ∃ u, exec .frameEof s = .next u ∧
        (if ∃ v : Byte, w.lastMuster = some v ∧ w.running = true ∧ w.musterCount = 16 ∧ start.toNat < v.toNat + 1 ∧
              v.toNat + 1 ≤ 47 then
           (∀ v, w.lastMuster = some v → u.slc.muster.content = some (v + 1)) ∧ u.slc.musterRun = true
         else u.slc.muster.content = none ∧ u.slc.musterRun = false) ∧
        u.ptab = s.ptab ∧ OnlyChanges [.slc, .sid, .evu, .lest, .tge] s u)

/-! ### Tick-reached limits -/

/-- A report timer at 0 in RUN fills the NOTICE slot at spacing count 4 and defers below it (R75); at spacing count 4 a deferred
request fills the slot and clears (R76). The significant-change test holds exactly when a reported value or flag differs as R29
says. An early request fills, merges or defers in RUN, and is dropped elsewhere (R76); that with a NOTICE pending it changes
nothing at any spacing count is DEDUCED (log 25). The evaluation after a change of the own flags, here NOSYNC at a substitute tick,
hands the request (R30); a request deferred before that tick waits for its own row, also where the tick brings the count to 4
(DEDUCED: log 3), and that the one final test decides, a BELOWFLOOR that has come back included, is DEDUCED too (log 13). Whatever
the command, one after which own triple or own flags are others and the test holds leaves a station in RUN
with a NOTICE pending or a request deferred (R30, R76). -/
def Obligations.DueReportsFillOrDefer : Prop :=
  (∀ s : State, s.live → s.slc.notice = .empty →
    (s.sid.st = .run → s.slc.reportTimer = some 0 →
      ∃ u, exec .reportTimerDue s = .next u ∧
        u.slc = (if s.slc.spacing < 4 then { s.slc with deferred := true }
                 else { s.slc with notice := ⟨some (), false, none⟩ }) ∧
        OnlyChanges [.slc] s u) ∧
    (s.slc.spacing = 4 → s.slc.deferred = true →
      ∃ u, exec .spacingCountFull s = .next u ∧
        u.slc = { s.slc with notice := ⟨some (), false, none⟩, deferred := false } ∧ OnlyChanges [.slc] s u) ∧
    (∀ e p l rep flags, s.ftb.syncTimer = some e → s.csto.loaded = some p → s.sid.st = .run → s.ftb.nosync = false →
      OwnFlagsInv s → s.lest.l = some l → s.tge.own = some ⟨l, s.lest.ownFlags⟩ → s.lest.lRep = some rep →
      s.lest.flagsRep = some flags →
      ∃ u, exec .substituteTick s = .next u ∧ u.lest = { s.lest with ownFlags := u.flags } ∧
        u.lest.ownFlags.getLsbD 7 = true ∧
        (u.lest.significant = true →
          if 3 ≤ s.slc.spacing then u.slc.notice.content = some () ∧ u.slc.deferred = s.slc.deferred
          else u.slc.notice = .empty ∧ u.slc.deferred = true) ∧
        (u.lest.significant = false → u.slc.notice = .empty ∧ u.slc.deferred = s.slc.deferred))) ∧
  (∀ (c : Instr) (s t : State), exec c s = .next t → EngineInv s → s.csto.loaded.isSome → t.sid.st = .run →
    t.lest.l ≠ s.lest.l ∨ t.lest.ownFlags ≠ s.lest.ownFlags → t.lest.significant = true →
    t.slc.notice.content.isSome ∨ t.slc.deferred = true) ∧
  (∀ e : Lest, e.significant = true ↔
    ∃ l rep flags, e.l = some l ∧ e.lRep = some rep ∧ e.flagsRep = some flags ∧
      ((∃ c : Channel, rep.get c ≤ ((l.get c : Int) - (rep.get c : Int)).natAbs * 64) ∨ e.ownFlags ≠ flags)) ∧
  ∀ (st : IdState) (l : Slc),
    (st ≠ .run → earlyRequest st l = l) ∧
    (l.notice.content.isSome → earlyRequest st l = l) ∧
    (l.notice = .empty → l.spacing = 4 → earlyRequest .run l = { l with notice := ⟨some (), false, none⟩ }) ∧
    (l.notice = .empty → l.spacing < 4 → earlyRequest .run l = { l with deferred := true })

/-- The listen timer at 2·P starts the claim: CLAIMING, and with the link ACTIVE the first EMPTY slot from the seed becomes the
candidate, with a FRESH STAKE for it; with none EMPTY, UNADDRESSED (R92, R93, R94, R105). -/
def Obligations.ListenEndStakesFromTheSeed : Prop :=
  ∀ (s : State) (p : Params) (n : Nat), s.live → s.csto.loaded = some p → s.sid.st = .listen → s.sid.listen = some n →
    2 * p.period ≤ n → s.slc.stake = .empty →
    ∃ u, exec .listenEnd s = .next u ∧ u.sid.attempts = 0 ∧ u.sid.listen = none ∧ u.ptab.slots = s.ptab.slots ∧
      (s.fc.link = .active →
        (∀ k : Nat, k < 48 → s.ptab.slots.get (addrAfter (seedOf s.sid.uid) k) = .empty →
          (∀ j, j < k → s.ptab.slots.get (addrAfter (seedOf s.sid.uid) j) ≠ .empty) →
          u.sid.st = .claiming ∧ u.sid.candidate = some (addrAfter (seedOf s.sid.uid) k) ∧
            u.slc.stake.content = some ⟨addrAfter (seedOf s.sid.uid) k, .fresh, s.sid.uid⟩) ∧
        ((∀ a : Addr, s.ptab.slots.get a ≠ .empty) →
          u.sid.st = .unaddressed ∧ u.sid.candidate = none ∧ u.slc.stake.content = none ∧
            u.evu.raw.getLsbD 14 = true)) ∧
      (s.fc.link ≠ .active → u.sid.st = .claiming ∧ u.sid.candidate = none ∧
        u.sid.search = some (seedOf s.sid.uid, true) ∧ u.slc.stake.content = none) ∧
      OnlyChanges [.sid, .slc, .ptab, .evu] s u

/-- A FRESH slot at the staleness point goes STALE and leaves the engine's contributions, and a flag that this changes is evaluated
for an early request (R30; once: DEDUCED, log 13); a HEARD or STALE slot at the removal
point goes EMPTY; other slots stay (R113, R118). In UNADDRESSED a slot that so turns EMPTY starts a claim from the seed, whose
choice waits outside ACTIVE (R93, R105, R119), and so does a hand-off that was on its way, over the slots as they then stand
(R93, R114; log 37). These two commands find a slot still at its point, where no tick has tested it (log 3). -/
def Obligations.AgedSlotsGoStaleAndEmpty : Prop :=
  ∀ (s : State) (p : Params), s.live → s.csto.loaded = some p →
    (∃ u, exec .slotStale s = .next u ∧
      (∀ a : Addr, u.ptab.slots.get a = (match s.ptab.slots.get a with
        | .fresh lum flags d h => if p.staleLimit * p.period ≤ d then .stale lum flags d h else .fresh lum flags d h
        | x => x)) ∧
      EngineWorks p s u ∧ EvaluatedAlone s u ∧ OnlyChanges [.ptab, .lest, .tge, .slc, .evu] s u) ∧
    ∃ u, exec .slotRemoval s = .next u ∧
      (∀ a : Addr, u.ptab.slots.get a = (match s.ptab.slots.get a with
        | .heard h tries => if p.goneLimit * p.period ≤ h then .empty else .heard h tries
        | .stale lum flags d h => if p.goneLimit * p.period ≤ h then .empty else .stale lum flags d h
        | x => x)) ∧
      (s.sid.st ≠ .unaddressed → u.sid = s.sid) ∧
      (s.sid.st = .unaddressed → s.slc.stake = .empty →
        ((∃ a : Addr, u.ptab.slots.get a = .empty ∧ s.ptab.slots.get a ≠ .empty) ∨ s.sid.emptied = true →
          ClaimsFromSeed s u) ∧
        ((∀ a : Addr, u.ptab.slots.get a = .empty → s.ptab.slots.get a = .empty) → s.sid.emptied = false → u.sid = s.sid)) ∧
      OnlyChanges [.ptab, .slc, .sid, .evu] s u

/-! ### Confinement -/

/-- 500 ms without an SOF: TEC and REC become 0, the timer restarts for 500 ms, a QUIET station is ACTIVE, and DETACHED of
either kind stays (R153). In CLAIMING the end of QUIET makes the choice that has waited, from its kept start (R93, R151); the peer
slots, the other outbound slots, ASK apart, and all else of the signalling stay as they are. -/
def Obligations.SilenceClearsTheCounts : Prop :=
  ∀ (s : State) (e : Nat), s.live → s.fc.silenceTimer = some e →
    ∃ u, exec .silenceExpiry s = .next u ∧
      u.fc = { s.fc with tec := 0, recCount := 0, silenceTimer := some (e + 500000),
                         link := if s.fc.link = .quiet then .active else s.fc.link } ∧
      u.evu.raw.getLsbD 11 = false ∧ u.evu.raw.getLsbD 9 = false ∧ (s.fc.link = .quiet → ReturnedToActive s u) ∧
      (s.fc.link ≠ .quiet → u.slc = s.slc ∧ u.sid = s.sid ∧ u.ptab = s.ptab) ∧ OnlyChanges [.fc, .slc, .sid, .ptab, .evu] s u

/-- A stage that has conducted for more than 4 bit times is cut off: DETACHED, recovery 1 s and history clear 60 s later; a third
detach at most 60 s after the first of three latches it, with no recovery and the history kept (R154, R156). Recovery closes
the cut with TEC 96 and ACTIVE, REC as it was, and makes the choice that has waited (R93, R155); with the stage still conducting it
ends in a new detach, with no choice made (DEDUCED: log 15). A detach cuts off what is being sent, the pending slots keep their
content, and identity and the peer slots stay (R74, R152, R154).
The history clear empties the history and stops its timer, in DETACHED latched too (R156; DEDUCED there: log 14). -/
def Obligations.StuckStageIsCutOffAndRecovers : Prop :=
  ∀ s : State, s.live →
    (∀ t onTime, s.fc.cut = false → 16 < onTime → s.fc.history.length ≤ 2 →
      ∃ u, exec (.detach t onTime) s = .next u ∧ u.fc.cut = true ∧ u.fc.tec = s.fc.tec ∧
        u.fc.recCount = s.fc.recCount ∧ u.fc.historyTimer = some (t + 60000000) ∧ u.evu.raw.getLsbD 10 = true ∧
        (∀ a b, s.fc.history = [a, b] → a ≤ t → t ≤ a + 60000000 →
          u.fc.link = .latched ∧ u.fc.history = [a, b] ∧ u.fc.recoveryTimer = none) ∧
        (∀ a b, s.fc.history = [a, b] → a + 60000000 < t →
          u.fc.link = .detached ∧ u.fc.history = [b, t] ∧ u.fc.recoveryTimer = some (t + 1000000)) ∧
        (s.fc.history.length < 2 →
          u.fc.link = .detached ∧ u.fc.history = s.fc.history ++ [t] ∧ u.fc.recoveryTimer = some (t + 1000000)) ∧
        CutOffTheLine s u ∧ OnlyChanges [.fc, .slc, .sid, .ptab, .evu] s u) ∧
    (∀ e, s.fc.link = .detached → s.fc.recoveryTimer = some e →
      ∃ u, exec (.detachRecovery false) s = .next u ∧ u.fc.cut = false ∧ u.fc.tec = 96 ∧ u.fc.link = .active ∧
        u.fc.recoveryTimer = none ∧ u.fc.recCount = s.fc.recCount ∧ u.fc.history = s.fc.history ∧
        u.evu.raw.getLsbD 10 = false ∧ ReturnedToActive s u ∧ OnlyChanges [.fc, .slc, .sid, .ptab, .evu] s u) ∧
    (∀ e, s.fc.link = .detached → s.fc.recoveryTimer = some e →
      ∃ u, exec (.detachRecovery true) s = .next u ∧ u.fc.cut = true ∧ u.fc.tec = 96 ∧ u.fc.link.isDetached = true ∧
        u.fc.historyTimer = some (e + 60000000) ∧ u.evu.raw.getLsbD 10 = true ∧ CutOffTheLine s u ∧
        OnlyChanges [.fc, .slc, .sid, .ptab, .evu] s u) ∧
    (∀ e, s.fc.historyTimer = some e →
      ∃ u, exec .detachHistoryClear s = .next u ∧ u.fc = { s.fc with history := [], historyTimer := none } ∧
        OnlyChanges [.fc] s u)

/-- A line held dominant by another for more than 1 ms: BUS_STUCK, HUNT, at most one receive error; 4 bit times of recessive
line clear it and the receiver is READY (R157). That BUS_STUCK leaves no frame in reception is the model's choice (log 40). -/
def Obligations.StuckLineStopsReception : Prop :=
  ∀ s : State, s.live →
    (∀ d, 1000 < d → s.slc.driver = .released → s.fc.recCount ≤ 255 →
      ∃ u, exec (.busStuckSet d) s = .next u ∧ u.fc.busStuck = true ∧ u.slc.phase = .hunt ∧ u.slc.rx = none ∧
        u.slc.tx = none ∧ u.fc.tec = s.fc.tec ∧ s.fc.recCount ≤ u.fc.recCount ∧ u.fc.recCount ≤ s.fc.recCount + 1 ∧
        (s.slc.phase = .hunt ∨ s.slc.phase = .ready → u.fc.recCount = s.fc.recCount) ∧ u.fc.link = s.fc.link ∧
        u.evu.raw.getLsbD 12 = true ∧ OnlyChanges [.slc, .fc, .sid, .ptab, .evu] s u) ∧
    (s.fc.busStuck = true →
      ∃ u, exec .busStuckClear s = .next u ∧ u.fc = { s.fc with busStuck := false, stuckFor := none } ∧
        u.slc.phase = .ready ∧ u.evu.raw.getLsbD 12 = false ∧ OnlyChanges [.fc, .slc, .sid, .ptab, .evu, .lest, .tge] s u)

/-! ### Invariants that every step keeps -/

/-- The array stays canonical, and a burn in progress stays off locked sections and byte 127 (R160, R167, R169). -/
def Obligations.StoreInvariantKept : Prop := ∀ s t, StoreInv s → step s = .next t → StoreInv t

/-- Four views are kept true by every step: the raw set shows the thirteen level conditions as their owners hold them, and no
pulse entry (R173); the own-flags set shows the eight flags as their owners hold them (R26); the fault line is driven exactly
while a latched entry has its mask entry set (R175); the engine holds its inputs as their owners hold them, and its results are
those of a recompute from them; before the end of loading it holds no own entry (R126, R127, R146). -/
def Obligations.ViewsStayTrue : Prop :=
  ∀ s t, step s = .next t →
    (RawSetInv s → RawSetInv t) ∧ (OwnFlagsInv s → OwnFlagsInv t) ∧ (FaultLineInv s → FaultLineInv t) ∧
      (AddressInv s → EngineInv s → EngineInv t)

/-- An own address is held exactly in RUN, and its slot is SELF and no other is (R102). -/
def Obligations.AddressInvariantKept : Prop := ∀ s t, AddressInv s → step s = .next t → AddressInv t

/-- Nothing is sent but a STAKE in CLAIMING or anything in RUN, and only with the link ACTIVE (R71); while nothing is sent the
driver is released (R49). -/
def Obligations.SendInvariantKept : Prop := ∀ s t, SendInv s → step s = .next t → SendInv t

/-- T_f stays in −640..2000 (R8), and CRIT is never set while HOT is clear (R11). -/
def Obligations.TemperatureInvariantKept : Prop := ∀ s t, TemperatureInv s → step s = .next t → TemperatureInv t

/-- Aging factors stay in 16384..34816 (R22), thermal factors in 16384..40960 (R19), estimates in 64..65535 (R23). -/
def Obligations.EstimateInvariantKept : Prop := ∀ s t, EstimateInv s → step s = .next t → EstimateInv t

/-- Every applied gain stays in 2048..4096 (R138). -/
def Obligations.GainInvariantKept : Prop := ∀ s t, GainInv s → step s = .next t → GainInv t

/-- The reference group is lit in ARMED and WAIT, in the current channel, and dark otherwise (R35, R47, R48). -/
def Obligations.SenseDriveInvariantKept : Prop := ∀ s t, SenseDriveInv s → step s = .next t → SenseDriveInv t

/-- A slot's heard age never exceeds its data age (R112), TEC and REC stay in 0..255 (R148), and the driver cut is open exactly
in DETACHED, latched or not (R154, R155). The ASK slot is kept filled for the ASK candidate: it asks the lowest address that is
HEARD with ask tries below 3, in RUN and ACTIVE with no outcome awaited, and is empty otherwise (R120, R121). -/
def Obligations.AgesAndCountsKept : Prop :=
  ∀ s t, step s = .next t →
    (AgesInv s → CountsInv s → AgesInv t ∧ CountsInv t) ∧ (SendInv s → AskInv s → AskInv t)

/-- The state at reset meets every invariant, and the UID is neither all zeros nor all ones (R90). The array's erased content
there is the model's choice (log 7). -/
def Obligations.InvariantsHoldAtReset : Prop :=
  StoreInv State.reset ∧ FaultLineInv State.reset ∧ RawSetInv State.reset ∧ OwnFlagsInv State.reset ∧
    AddressInv State.reset ∧ SendInv State.reset ∧ TemperatureInv State.reset ∧ EstimateInv State.reset ∧
    GainInv State.reset ∧ SenseDriveInv State.reset ∧ AgesInv State.reset ∧ CountsInv State.reset ∧
    AskInv State.reset ∧ EngineInv State.reset ∧ State.reset.sid.uid ≠ 0 ∧ State.reset.sid.uid ≠ BitVec.allOnes 64

/-! ### What no step does -/

/-- No step clears a bit of the array (R159), and a byte of a section whose lock mark is set never changes (R160). -/
def Obligations.ArrayOnlyGainsBits : Prop :=
  ∀ s t, StoreInv s → step s = .next t →
    (∀ a, t.csto.array.read a &&& s.csto.array.read a = s.csto.array.read a) ∧
      ∀ a, lockedByte (s.csto.array.read 127) a = true → t.csto.array.read a = s.csto.array.read a

/-- At every step but a reset and the end of loading an applied gain changes by no more than the slew step, or eight times it
when CRIT is set and the gain is falling (R137). Only a tick after loading slews: a step that is no accepted FSYNC edge and no
substitute tick then, no RESET and no end of loading leaves the applied gains as they were, and hands the driver port nothing (R127,
R137, R140, R146). -/
def Obligations.GainsMoveByTheSlewStep : Prop :=
  (∀ s t : State, step s = .next t →
    (t.tge.applied = s.tge.applied ∧
      (t.drvp = s.drvp ∨ t.drvp = s.drvp.complete ∧ ∃ rest, s.pending = .driverTransferComplete :: rest)) ∨
    ∃ c rest, s.pending = c :: rest ∧
      (c = .reset ∨ (c = .endOfLoading ∧ s.csto.loaded = none) ∨ (c = .substituteTick ∧ s.csto.loaded.isSome) ∨
        ∃ m, c = .fsyncEdge m ∧ s.csto.loaded.isSome ∧ ∀ e, s.ftb.lastEdge = some e → e + 4000 ≤ m)) ∧
  ∀ (s t : State) (p : Params), s.csto.loaded = some p → t.csto.loaded = some p → step s = .next t →
    ∀ c : Channel, t.tge.applied.get c ≤ s.tge.applied.get c + p.slewStep ∧
      s.tge.applied.get c ≤ t.tge.applied.get c + (if s.tge.crit then 8 * p.slewStep else p.slewStep)

/-- An event that arises sets its latched entry and its arisal mark: a level event at whatever command its raw entry goes from clear to
set (from a raw set that shows the conditions), and the three pulses where their owners pulse them, for a DUP_ADDRESS before the
STATUS_CLEAR capture at the same EOB with the mark cleared again (R101, R103, R164, R174, R177; that order DEDUCED: log 12). A latched
entry stays set through every command but a clear request and a reset, and an arisal mark through every one but that capture and a
reset, also where the raw entry falls (R174, R177, R178). -/
def Obligations.LatchedEntriesPersist : Prop :=
  ∀ (c : Instr) (s t : State), exec c s = .next t → c ≠ .reset →
    (RawSetInv s → ∀ k, s.evu.raw.getLsbD k = false → t.evu.raw.getLsbD k = true →
      t.evu.latched.getLsbD k = true ∧ t.evu.marks.getLsbD k = true) ∧
    (∀ p, s.csto.loaded = none → t.csto.loaded = some p → p.setDefault = true →
      t.evu.latched.getLsbD 5 = true ∧ t.evu.marks.getLsbD 5 = true) ∧
    (s.sid.own.isSome → t.sid.own = none → t.evu.latched.getLsbD 13 = true ∧ t.evu.marks.getLsbD 13 = true) ∧
    (s.sid.reassert = false → t.sid.reassert = true → t.evu.latched.getLsbD 15 = true ∧
      ((∀ src tgt, mainPart c ≠ some ⟨src, tgt, .ask 0x02⟩) → t.evu.marks.getLsbD 15 = true)) ∧
    (c ≠ .ownReplyComplete → ∀ k, s.evu.latched.getLsbD k = true → t.evu.latched.getLsbD k = true) ∧
    ((∀ src tgt, mainPart c ≠ some ⟨src, tgt, .ask 0x02⟩) → ∀ k, s.evu.marks.getLsbD k = true → t.evu.marks.getLsbD k = true)

/-- The own address is set by nothing but the close of a frame, in CLAIMING, and to the candidate (R95, R102). It is cleared by a
reset and a yield alone: at the EOB of a HELD STAKE for it from a lower UID, in ACTIVE, or at the close of a frame; its slot is then
EMPTY, ADDR_YIELD is latched, and the station has left RUN (R99, R101, R102). That the close may come with BUS_STUCK_CLEAR is
DEDUCED (log 11). -/
def Obligations.OwnAddressComesFromTheClaim : Prop :=
  ∀ (c : Instr) (s t : State) (a : Addr), AddressInv s → exec c s = .next t →
    (t.sid.own = some a → s.sid.own ≠ some a →
      (c = .frameEof ∨ c = .busStuckClear) ∧ s.sid.st = .claiming ∧ s.sid.candidate = some a) ∧
    (s.sid.own = some a → t.sid.own ≠ some a →
      t.sid.own = none ∧
        (c = .reset ∨
          (c = .frameEof ∨ c = .busStuckClear ∨
            ∃ src uid, c = .stakeReceived src (addrByte a) uid 1 ∧ s.fc.link = .active ∧ uid.toNat < s.sid.uid.toNat) ∧
          (t.sid.st = .claiming ∨ t.sid.st = .unaddressed) ∧ t.ptab.slots.get a = .empty ∧
            t.evu.latched.getLsbD 13 = true))

/-- Only a reset ends DETACHED latched (R158) and replaces the loaded copy (R164). -/
def Obligations.OnlyResetUndoesLatchAndLoad : Prop :=
  ∀ (c : Instr) (s t : State), CountsInv s → exec c s = .next t → c ≠ .reset →
    (s.fc.link = .latched → t.fc.link = .latched) ∧ (∀ p, s.csto.loaded = some p → t.csto.loaded = some p)
end

