-- ==== Sys2Proof/Laws/State.lean ====
section
/-! SUPPORT. What each block update leaves in each field of `State`: one lemma per field per update, so that no proof
unfolds a record update; and that a second update of one block overwrites the first. -/

namespace Sys2Proof.Machine.State

variable (s : State)

@[simp] theorem setPins_pins (x : Pins) : (s.setPins x).pins = x := rfl
@[simp] theorem setPins_ftb (x : Pins) : (s.setPins x).ftb = s.ftb := rfl
@[simp] theorem setPins_tmon (x : Pins) : (s.setPins x).tmon = s.tmon := rfl
@[simp] theorem setPins_lsb (x : Pins) : (s.setPins x).lsb = s.lsb := rfl
@[simp] theorem setPins_lest (x : Pins) : (s.setPins x).lest = s.lest := rfl
@[simp] theorem setPins_sseq (x : Pins) : (s.setPins x).sseq = s.sseq := rfl
@[simp] theorem setPins_slc (x : Pins) : (s.setPins x).slc = s.slc := rfl
@[simp] theorem setPins_fc (x : Pins) : (s.setPins x).fc = s.fc := rfl
@[simp] theorem setPins_sid (x : Pins) : (s.setPins x).sid = s.sid := rfl
@[simp] theorem setPins_ptab (x : Pins) : (s.setPins x).ptab = s.ptab := rfl
@[simp] theorem setPins_tge (x : Pins) : (s.setPins x).tge = s.tge := rfl
@[simp] theorem setPins_drvp (x : Pins) : (s.setPins x).drvp = s.drvp := rfl
@[simp] theorem setPins_csto (x : Pins) : (s.setPins x).csto = s.csto := rfl
@[simp] theorem setPins_evu (x : Pins) : (s.setPins x).evu = s.evu := rfl
@[simp] theorem setPins_freeReads (x : Pins) : (s.setPins x).freeReads = s.freeReads := rfl
@[simp] theorem setPins_pending (x : Pins) : (s.setPins x).pending = s.pending := rfl
@[simp] theorem setPins_setPins (x y : Pins) : (s.setPins x).setPins y = s.setPins y := rfl
@[simp] theorem setPins_self : s.setPins s.pins = s := rfl

@[simp] theorem setFtb_pins (x : Ftb) : (s.setFtb x).pins = s.pins := rfl
@[simp] theorem setFtb_ftb (x : Ftb) : (s.setFtb x).ftb = x := rfl
@[simp] theorem setFtb_tmon (x : Ftb) : (s.setFtb x).tmon = s.tmon := rfl
@[simp] theorem setFtb_lsb (x : Ftb) : (s.setFtb x).lsb = s.lsb := rfl
@[simp] theorem setFtb_lest (x : Ftb) : (s.setFtb x).lest = s.lest := rfl
@[simp] theorem setFtb_sseq (x : Ftb) : (s.setFtb x).sseq = s.sseq := rfl
@[simp] theorem setFtb_slc (x : Ftb) : (s.setFtb x).slc = s.slc := rfl
@[simp] theorem setFtb_fc (x : Ftb) : (s.setFtb x).fc = s.fc := rfl
@[simp] theorem setFtb_sid (x : Ftb) : (s.setFtb x).sid = s.sid := rfl
@[simp] theorem setFtb_ptab (x : Ftb) : (s.setFtb x).ptab = s.ptab := rfl
@[simp] theorem setFtb_tge (x : Ftb) : (s.setFtb x).tge = s.tge := rfl
@[simp] theorem setFtb_drvp (x : Ftb) : (s.setFtb x).drvp = s.drvp := rfl
@[simp] theorem setFtb_csto (x : Ftb) : (s.setFtb x).csto = s.csto := rfl
@[simp] theorem setFtb_evu (x : Ftb) : (s.setFtb x).evu = s.evu := rfl
@[simp] theorem setFtb_freeReads (x : Ftb) : (s.setFtb x).freeReads = s.freeReads := rfl
@[simp] theorem setFtb_pending (x : Ftb) : (s.setFtb x).pending = s.pending := rfl
@[simp] theorem setFtb_setFtb (x y : Ftb) : (s.setFtb x).setFtb y = s.setFtb y := rfl
@[simp] theorem setFtb_self : s.setFtb s.ftb = s := rfl

@[simp] theorem setTmon_pins (x : Tmon) : (s.setTmon x).pins = s.pins := rfl
@[simp] theorem setTmon_ftb (x : Tmon) : (s.setTmon x).ftb = s.ftb := rfl
@[simp] theorem setTmon_tmon (x : Tmon) : (s.setTmon x).tmon = x := rfl
@[simp] theorem setTmon_lsb (x : Tmon) : (s.setTmon x).lsb = s.lsb := rfl
@[simp] theorem setTmon_lest (x : Tmon) : (s.setTmon x).lest = s.lest := rfl
@[simp] theorem setTmon_sseq (x : Tmon) : (s.setTmon x).sseq = s.sseq := rfl
@[simp] theorem setTmon_slc (x : Tmon) : (s.setTmon x).slc = s.slc := rfl
@[simp] theorem setTmon_fc (x : Tmon) : (s.setTmon x).fc = s.fc := rfl
@[simp] theorem setTmon_sid (x : Tmon) : (s.setTmon x).sid = s.sid := rfl
@[simp] theorem setTmon_ptab (x : Tmon) : (s.setTmon x).ptab = s.ptab := rfl
@[simp] theorem setTmon_tge (x : Tmon) : (s.setTmon x).tge = s.tge := rfl
@[simp] theorem setTmon_drvp (x : Tmon) : (s.setTmon x).drvp = s.drvp := rfl
@[simp] theorem setTmon_csto (x : Tmon) : (s.setTmon x).csto = s.csto := rfl
@[simp] theorem setTmon_evu (x : Tmon) : (s.setTmon x).evu = s.evu := rfl
@[simp] theorem setTmon_freeReads (x : Tmon) : (s.setTmon x).freeReads = s.freeReads := rfl
@[simp] theorem setTmon_pending (x : Tmon) : (s.setTmon x).pending = s.pending := rfl
@[simp] theorem setTmon_setTmon (x y : Tmon) : (s.setTmon x).setTmon y = s.setTmon y := rfl
@[simp] theorem setTmon_self : s.setTmon s.tmon = s := rfl

@[simp] theorem setLsb_pins (x : Lsb) : (s.setLsb x).pins = s.pins := rfl
@[simp] theorem setLsb_ftb (x : Lsb) : (s.setLsb x).ftb = s.ftb := rfl
@[simp] theorem setLsb_tmon (x : Lsb) : (s.setLsb x).tmon = s.tmon := rfl
@[simp] theorem setLsb_lsb (x : Lsb) : (s.setLsb x).lsb = x := rfl
@[simp] theorem setLsb_lest (x : Lsb) : (s.setLsb x).lest = s.lest := rfl
@[simp] theorem setLsb_sseq (x : Lsb) : (s.setLsb x).sseq = s.sseq := rfl
@[simp] theorem setLsb_slc (x : Lsb) : (s.setLsb x).slc = s.slc := rfl
@[simp] theorem setLsb_fc (x : Lsb) : (s.setLsb x).fc = s.fc := rfl
@[simp] theorem setLsb_sid (x : Lsb) : (s.setLsb x).sid = s.sid := rfl
@[simp] theorem setLsb_ptab (x : Lsb) : (s.setLsb x).ptab = s.ptab := rfl
@[simp] theorem setLsb_tge (x : Lsb) : (s.setLsb x).tge = s.tge := rfl
@[simp] theorem setLsb_drvp (x : Lsb) : (s.setLsb x).drvp = s.drvp := rfl
@[simp] theorem setLsb_csto (x : Lsb) : (s.setLsb x).csto = s.csto := rfl
@[simp] theorem setLsb_evu (x : Lsb) : (s.setLsb x).evu = s.evu := rfl
@[simp] theorem setLsb_freeReads (x : Lsb) : (s.setLsb x).freeReads = s.freeReads := rfl
@[simp] theorem setLsb_pending (x : Lsb) : (s.setLsb x).pending = s.pending := rfl
@[simp] theorem setLsb_setLsb (x y : Lsb) : (s.setLsb x).setLsb y = s.setLsb y := rfl
@[simp] theorem setLsb_self : s.setLsb s.lsb = s := rfl

@[simp] theorem setLest_pins (x : Lest) : (s.setLest x).pins = s.pins := rfl
@[simp] theorem setLest_ftb (x : Lest) : (s.setLest x).ftb = s.ftb := rfl
@[simp] theorem setLest_tmon (x : Lest) : (s.setLest x).tmon = s.tmon := rfl
@[simp] theorem setLest_lsb (x : Lest) : (s.setLest x).lsb = s.lsb := rfl
@[simp] theorem setLest_lest (x : Lest) : (s.setLest x).lest = x := rfl
@[simp] theorem setLest_sseq (x : Lest) : (s.setLest x).sseq = s.sseq := rfl
@[simp] theorem setLest_slc (x : Lest) : (s.setLest x).slc = s.slc := rfl
@[simp] theorem setLest_fc (x : Lest) : (s.setLest x).fc = s.fc := rfl
@[simp] theorem setLest_sid (x : Lest) : (s.setLest x).sid = s.sid := rfl
@[simp] theorem setLest_ptab (x : Lest) : (s.setLest x).ptab = s.ptab := rfl
@[simp] theorem setLest_tge (x : Lest) : (s.setLest x).tge = s.tge := rfl
@[simp] theorem setLest_drvp (x : Lest) : (s.setLest x).drvp = s.drvp := rfl
@[simp] theorem setLest_csto (x : Lest) : (s.setLest x).csto = s.csto := rfl
@[simp] theorem setLest_evu (x : Lest) : (s.setLest x).evu = s.evu := rfl
@[simp] theorem setLest_freeReads (x : Lest) : (s.setLest x).freeReads = s.freeReads := rfl
@[simp] theorem setLest_pending (x : Lest) : (s.setLest x).pending = s.pending := rfl
@[simp] theorem setLest_setLest (x y : Lest) : (s.setLest x).setLest y = s.setLest y := rfl
@[simp] theorem setLest_self : s.setLest s.lest = s := rfl

@[simp] theorem setSseq_pins (x : Sseq) : (s.setSseq x).pins = s.pins := rfl
@[simp] theorem setSseq_ftb (x : Sseq) : (s.setSseq x).ftb = s.ftb := rfl
@[simp] theorem setSseq_tmon (x : Sseq) : (s.setSseq x).tmon = s.tmon := rfl
@[simp] theorem setSseq_lsb (x : Sseq) : (s.setSseq x).lsb = s.lsb := rfl
@[simp] theorem setSseq_lest (x : Sseq) : (s.setSseq x).lest = s.lest := rfl
@[simp] theorem setSseq_sseq (x : Sseq) : (s.setSseq x).sseq = x := rfl
@[simp] theorem setSseq_slc (x : Sseq) : (s.setSseq x).slc = s.slc := rfl
@[simp] theorem setSseq_fc (x : Sseq) : (s.setSseq x).fc = s.fc := rfl
@[simp] theorem setSseq_sid (x : Sseq) : (s.setSseq x).sid = s.sid := rfl
@[simp] theorem setSseq_ptab (x : Sseq) : (s.setSseq x).ptab = s.ptab := rfl
@[simp] theorem setSseq_tge (x : Sseq) : (s.setSseq x).tge = s.tge := rfl
@[simp] theorem setSseq_drvp (x : Sseq) : (s.setSseq x).drvp = s.drvp := rfl
@[simp] theorem setSseq_csto (x : Sseq) : (s.setSseq x).csto = s.csto := rfl
@[simp] theorem setSseq_evu (x : Sseq) : (s.setSseq x).evu = s.evu := rfl
@[simp] theorem setSseq_freeReads (x : Sseq) : (s.setSseq x).freeReads = s.freeReads := rfl
@[simp] theorem setSseq_pending (x : Sseq) : (s.setSseq x).pending = s.pending := rfl
@[simp] theorem setSseq_setSseq (x y : Sseq) : (s.setSseq x).setSseq y = s.setSseq y := rfl
@[simp] theorem setSseq_self : s.setSseq s.sseq = s := rfl

@[simp] theorem setSlc_pins (x : Slc) : (s.setSlc x).pins = s.pins := rfl
@[simp] theorem setSlc_ftb (x : Slc) : (s.setSlc x).ftb = s.ftb := rfl
@[simp] theorem setSlc_tmon (x : Slc) : (s.setSlc x).tmon = s.tmon := rfl
@[simp] theorem setSlc_lsb (x : Slc) : (s.setSlc x).lsb = s.lsb := rfl
@[simp] theorem setSlc_lest (x : Slc) : (s.setSlc x).lest = s.lest := rfl
@[simp] theorem setSlc_sseq (x : Slc) : (s.setSlc x).sseq = s.sseq := rfl
@[simp] theorem setSlc_slc (x : Slc) : (s.setSlc x).slc = x := rfl
@[simp] theorem setSlc_fc (x : Slc) : (s.setSlc x).fc = s.fc := rfl
@[simp] theorem setSlc_sid (x : Slc) : (s.setSlc x).sid = s.sid := rfl
@[simp] theorem setSlc_ptab (x : Slc) : (s.setSlc x).ptab = s.ptab := rfl
@[simp] theorem setSlc_tge (x : Slc) : (s.setSlc x).tge = s.tge := rfl
@[simp] theorem setSlc_drvp (x : Slc) : (s.setSlc x).drvp = s.drvp := rfl
@[simp] theorem setSlc_csto (x : Slc) : (s.setSlc x).csto = s.csto := rfl
@[simp] theorem setSlc_evu (x : Slc) : (s.setSlc x).evu = s.evu := rfl
@[simp] theorem setSlc_freeReads (x : Slc) : (s.setSlc x).freeReads = s.freeReads := rfl
@[simp] theorem setSlc_pending (x : Slc) : (s.setSlc x).pending = s.pending := rfl
@[simp] theorem setSlc_setSlc (x y : Slc) : (s.setSlc x).setSlc y = s.setSlc y := rfl
@[simp] theorem setSlc_self : s.setSlc s.slc = s := rfl

@[simp] theorem setFc_pins (x : Fc) : (s.setFc x).pins = s.pins := rfl
@[simp] theorem setFc_ftb (x : Fc) : (s.setFc x).ftb = s.ftb := rfl
@[simp] theorem setFc_tmon (x : Fc) : (s.setFc x).tmon = s.tmon := rfl
@[simp] theorem setFc_lsb (x : Fc) : (s.setFc x).lsb = s.lsb := rfl
@[simp] theorem setFc_lest (x : Fc) : (s.setFc x).lest = s.lest := rfl
@[simp] theorem setFc_sseq (x : Fc) : (s.setFc x).sseq = s.sseq := rfl
@[simp] theorem setFc_slc (x : Fc) : (s.setFc x).slc = s.slc := rfl
@[simp] theorem setFc_fc (x : Fc) : (s.setFc x).fc = x := rfl
@[simp] theorem setFc_sid (x : Fc) : (s.setFc x).sid = s.sid := rfl
@[simp] theorem setFc_ptab (x : Fc) : (s.setFc x).ptab = s.ptab := rfl
@[simp] theorem setFc_tge (x : Fc) : (s.setFc x).tge = s.tge := rfl
@[simp] theorem setFc_drvp (x : Fc) : (s.setFc x).drvp = s.drvp := rfl
@[simp] theorem setFc_csto (x : Fc) : (s.setFc x).csto = s.csto := rfl
@[simp] theorem setFc_evu (x : Fc) : (s.setFc x).evu = s.evu := rfl
@[simp] theorem setFc_freeReads (x : Fc) : (s.setFc x).freeReads = s.freeReads := rfl
@[simp] theorem setFc_pending (x : Fc) : (s.setFc x).pending = s.pending := rfl
@[simp] theorem setFc_setFc (x y : Fc) : (s.setFc x).setFc y = s.setFc y := rfl
@[simp] theorem setFc_self : s.setFc s.fc = s := rfl

@[simp] theorem setSid_pins (x : Sid) : (s.setSid x).pins = s.pins := rfl
@[simp] theorem setSid_ftb (x : Sid) : (s.setSid x).ftb = s.ftb := rfl
@[simp] theorem setSid_tmon (x : Sid) : (s.setSid x).tmon = s.tmon := rfl
@[simp] theorem setSid_lsb (x : Sid) : (s.setSid x).lsb = s.lsb := rfl
@[simp] theorem setSid_lest (x : Sid) : (s.setSid x).lest = s.lest := rfl
@[simp] theorem setSid_sseq (x : Sid) : (s.setSid x).sseq = s.sseq := rfl
@[simp] theorem setSid_slc (x : Sid) : (s.setSid x).slc = s.slc := rfl
@[simp] theorem setSid_fc (x : Sid) : (s.setSid x).fc = s.fc := rfl
@[simp] theorem setSid_sid (x : Sid) : (s.setSid x).sid = x := rfl
@[simp] theorem setSid_ptab (x : Sid) : (s.setSid x).ptab = s.ptab := rfl
@[simp] theorem setSid_tge (x : Sid) : (s.setSid x).tge = s.tge := rfl
@[simp] theorem setSid_drvp (x : Sid) : (s.setSid x).drvp = s.drvp := rfl
@[simp] theorem setSid_csto (x : Sid) : (s.setSid x).csto = s.csto := rfl
@[simp] theorem setSid_evu (x : Sid) : (s.setSid x).evu = s.evu := rfl
@[simp] theorem setSid_freeReads (x : Sid) : (s.setSid x).freeReads = s.freeReads := rfl
@[simp] theorem setSid_pending (x : Sid) : (s.setSid x).pending = s.pending := rfl
@[simp] theorem setSid_setSid (x y : Sid) : (s.setSid x).setSid y = s.setSid y := rfl
@[simp] theorem setSid_self : s.setSid s.sid = s := rfl

@[simp] theorem setPtab_pins (x : Ptab) : (s.setPtab x).pins = s.pins := rfl
@[simp] theorem setPtab_ftb (x : Ptab) : (s.setPtab x).ftb = s.ftb := rfl
@[simp] theorem setPtab_tmon (x : Ptab) : (s.setPtab x).tmon = s.tmon := rfl
@[simp] theorem setPtab_lsb (x : Ptab) : (s.setPtab x).lsb = s.lsb := rfl
@[simp] theorem setPtab_lest (x : Ptab) : (s.setPtab x).lest = s.lest := rfl
@[simp] theorem setPtab_sseq (x : Ptab) : (s.setPtab x).sseq = s.sseq := rfl
@[simp] theorem setPtab_slc (x : Ptab) : (s.setPtab x).slc = s.slc := rfl
@[simp] theorem setPtab_fc (x : Ptab) : (s.setPtab x).fc = s.fc := rfl
@[simp] theorem setPtab_sid (x : Ptab) : (s.setPtab x).sid = s.sid := rfl
@[simp] theorem setPtab_ptab (x : Ptab) : (s.setPtab x).ptab = x := rfl
@[simp] theorem setPtab_tge (x : Ptab) : (s.setPtab x).tge = s.tge := rfl
@[simp] theorem setPtab_drvp (x : Ptab) : (s.setPtab x).drvp = s.drvp := rfl
@[simp] theorem setPtab_csto (x : Ptab) : (s.setPtab x).csto = s.csto := rfl
@[simp] theorem setPtab_evu (x : Ptab) : (s.setPtab x).evu = s.evu := rfl
@[simp] theorem setPtab_freeReads (x : Ptab) : (s.setPtab x).freeReads = s.freeReads := rfl
@[simp] theorem setPtab_pending (x : Ptab) : (s.setPtab x).pending = s.pending := rfl
@[simp] theorem setPtab_setPtab (x y : Ptab) : (s.setPtab x).setPtab y = s.setPtab y := rfl
@[simp] theorem setPtab_self : s.setPtab s.ptab = s := rfl

@[simp] theorem setTge_pins (x : Tge) : (s.setTge x).pins = s.pins := rfl
@[simp] theorem setTge_ftb (x : Tge) : (s.setTge x).ftb = s.ftb := rfl
@[simp] theorem setTge_tmon (x : Tge) : (s.setTge x).tmon = s.tmon := rfl
@[simp] theorem setTge_lsb (x : Tge) : (s.setTge x).lsb = s.lsb := rfl
@[simp] theorem setTge_lest (x : Tge) : (s.setTge x).lest = s.lest := rfl
@[simp] theorem setTge_sseq (x : Tge) : (s.setTge x).sseq = s.sseq := rfl
@[simp] theorem setTge_slc (x : Tge) : (s.setTge x).slc = s.slc := rfl
@[simp] theorem setTge_fc (x : Tge) : (s.setTge x).fc = s.fc := rfl
@[simp] theorem setTge_sid (x : Tge) : (s.setTge x).sid = s.sid := rfl
@[simp] theorem setTge_ptab (x : Tge) : (s.setTge x).ptab = s.ptab := rfl
@[simp] theorem setTge_tge (x : Tge) : (s.setTge x).tge = x := rfl
@[simp] theorem setTge_drvp (x : Tge) : (s.setTge x).drvp = s.drvp := rfl
@[simp] theorem setTge_csto (x : Tge) : (s.setTge x).csto = s.csto := rfl
@[simp] theorem setTge_evu (x : Tge) : (s.setTge x).evu = s.evu := rfl
@[simp] theorem setTge_freeReads (x : Tge) : (s.setTge x).freeReads = s.freeReads := rfl
@[simp] theorem setTge_pending (x : Tge) : (s.setTge x).pending = s.pending := rfl
@[simp] theorem setTge_setTge (x y : Tge) : (s.setTge x).setTge y = s.setTge y := rfl
@[simp] theorem setTge_self : s.setTge s.tge = s := rfl

@[simp] theorem setDrvp_pins (x : Drvp) : (s.setDrvp x).pins = s.pins := rfl
@[simp] theorem setDrvp_ftb (x : Drvp) : (s.setDrvp x).ftb = s.ftb := rfl
@[simp] theorem setDrvp_tmon (x : Drvp) : (s.setDrvp x).tmon = s.tmon := rfl
@[simp] theorem setDrvp_lsb (x : Drvp) : (s.setDrvp x).lsb = s.lsb := rfl
@[simp] theorem setDrvp_lest (x : Drvp) : (s.setDrvp x).lest = s.lest := rfl
@[simp] theorem setDrvp_sseq (x : Drvp) : (s.setDrvp x).sseq = s.sseq := rfl
@[simp] theorem setDrvp_slc (x : Drvp) : (s.setDrvp x).slc = s.slc := rfl
@[simp] theorem setDrvp_fc (x : Drvp) : (s.setDrvp x).fc = s.fc := rfl
@[simp] theorem setDrvp_sid (x : Drvp) : (s.setDrvp x).sid = s.sid := rfl
@[simp] theorem setDrvp_ptab (x : Drvp) : (s.setDrvp x).ptab = s.ptab := rfl
@[simp] theorem setDrvp_tge (x : Drvp) : (s.setDrvp x).tge = s.tge := rfl
@[simp] theorem setDrvp_drvp (x : Drvp) : (s.setDrvp x).drvp = x := rfl
@[simp] theorem setDrvp_csto (x : Drvp) : (s.setDrvp x).csto = s.csto := rfl
@[simp] theorem setDrvp_evu (x : Drvp) : (s.setDrvp x).evu = s.evu := rfl
@[simp] theorem setDrvp_freeReads (x : Drvp) : (s.setDrvp x).freeReads = s.freeReads := rfl
@[simp] theorem setDrvp_pending (x : Drvp) : (s.setDrvp x).pending = s.pending := rfl
@[simp] theorem setDrvp_setDrvp (x y : Drvp) : (s.setDrvp x).setDrvp y = s.setDrvp y := rfl
@[simp] theorem setDrvp_self : s.setDrvp s.drvp = s := rfl

@[simp] theorem setCsto_pins (x : Csto) : (s.setCsto x).pins = s.pins := rfl
@[simp] theorem setCsto_ftb (x : Csto) : (s.setCsto x).ftb = s.ftb := rfl
@[simp] theorem setCsto_tmon (x : Csto) : (s.setCsto x).tmon = s.tmon := rfl
@[simp] theorem setCsto_lsb (x : Csto) : (s.setCsto x).lsb = s.lsb := rfl
@[simp] theorem setCsto_lest (x : Csto) : (s.setCsto x).lest = s.lest := rfl
@[simp] theorem setCsto_sseq (x : Csto) : (s.setCsto x).sseq = s.sseq := rfl
@[simp] theorem setCsto_slc (x : Csto) : (s.setCsto x).slc = s.slc := rfl
@[simp] theorem setCsto_fc (x : Csto) : (s.setCsto x).fc = s.fc := rfl
@[simp] theorem setCsto_sid (x : Csto) : (s.setCsto x).sid = s.sid := rfl
@[simp] theorem setCsto_ptab (x : Csto) : (s.setCsto x).ptab = s.ptab := rfl
@[simp] theorem setCsto_tge (x : Csto) : (s.setCsto x).tge = s.tge := rfl
@[simp] theorem setCsto_drvp (x : Csto) : (s.setCsto x).drvp = s.drvp := rfl
@[simp] theorem setCsto_csto (x : Csto) : (s.setCsto x).csto = x := rfl
@[simp] theorem setCsto_evu (x : Csto) : (s.setCsto x).evu = s.evu := rfl
@[simp] theorem setCsto_freeReads (x : Csto) : (s.setCsto x).freeReads = s.freeReads := rfl
@[simp] theorem setCsto_pending (x : Csto) : (s.setCsto x).pending = s.pending := rfl
@[simp] theorem setCsto_setCsto (x y : Csto) : (s.setCsto x).setCsto y = s.setCsto y := rfl
@[simp] theorem setCsto_self : s.setCsto s.csto = s := rfl

@[simp] theorem setEvu_pins (x : Evu) : (s.setEvu x).pins = s.pins := rfl
@[simp] theorem setEvu_ftb (x : Evu) : (s.setEvu x).ftb = s.ftb := rfl
@[simp] theorem setEvu_tmon (x : Evu) : (s.setEvu x).tmon = s.tmon := rfl
@[simp] theorem setEvu_lsb (x : Evu) : (s.setEvu x).lsb = s.lsb := rfl
@[simp] theorem setEvu_lest (x : Evu) : (s.setEvu x).lest = s.lest := rfl
@[simp] theorem setEvu_sseq (x : Evu) : (s.setEvu x).sseq = s.sseq := rfl
@[simp] theorem setEvu_slc (x : Evu) : (s.setEvu x).slc = s.slc := rfl
@[simp] theorem setEvu_fc (x : Evu) : (s.setEvu x).fc = s.fc := rfl
@[simp] theorem setEvu_sid (x : Evu) : (s.setEvu x).sid = s.sid := rfl
@[simp] theorem setEvu_ptab (x : Evu) : (s.setEvu x).ptab = s.ptab := rfl
@[simp] theorem setEvu_tge (x : Evu) : (s.setEvu x).tge = s.tge := rfl
@[simp] theorem setEvu_drvp (x : Evu) : (s.setEvu x).drvp = s.drvp := rfl
@[simp] theorem setEvu_csto (x : Evu) : (s.setEvu x).csto = s.csto := rfl
@[simp] theorem setEvu_evu (x : Evu) : (s.setEvu x).evu = x := rfl
@[simp] theorem setEvu_freeReads (x : Evu) : (s.setEvu x).freeReads = s.freeReads := rfl
@[simp] theorem setEvu_pending (x : Evu) : (s.setEvu x).pending = s.pending := rfl
@[simp] theorem setEvu_setEvu (x y : Evu) : (s.setEvu x).setEvu y = s.setEvu y := rfl
@[simp] theorem setEvu_self : s.setEvu s.evu = s := rfl

@[simp] theorem setFreeReads_pins (x : Nat) : (s.setFreeReads x).pins = s.pins := rfl
@[simp] theorem setFreeReads_ftb (x : Nat) : (s.setFreeReads x).ftb = s.ftb := rfl
@[simp] theorem setFreeReads_tmon (x : Nat) : (s.setFreeReads x).tmon = s.tmon := rfl
@[simp] theorem setFreeReads_lsb (x : Nat) : (s.setFreeReads x).lsb = s.lsb := rfl
@[simp] theorem setFreeReads_lest (x : Nat) : (s.setFreeReads x).lest = s.lest := rfl
@[simp] theorem setFreeReads_sseq (x : Nat) : (s.setFreeReads x).sseq = s.sseq := rfl
@[simp] theorem setFreeReads_slc (x : Nat) : (s.setFreeReads x).slc = s.slc := rfl
@[simp] theorem setFreeReads_fc (x : Nat) : (s.setFreeReads x).fc = s.fc := rfl
@[simp] theorem setFreeReads_sid (x : Nat) : (s.setFreeReads x).sid = s.sid := rfl
@[simp] theorem setFreeReads_ptab (x : Nat) : (s.setFreeReads x).ptab = s.ptab := rfl
@[simp] theorem setFreeReads_tge (x : Nat) : (s.setFreeReads x).tge = s.tge := rfl
@[simp] theorem setFreeReads_drvp (x : Nat) : (s.setFreeReads x).drvp = s.drvp := rfl
@[simp] theorem setFreeReads_csto (x : Nat) : (s.setFreeReads x).csto = s.csto := rfl
@[simp] theorem setFreeReads_evu (x : Nat) : (s.setFreeReads x).evu = s.evu := rfl
@[simp] theorem setFreeReads_freeReads (x : Nat) : (s.setFreeReads x).freeReads = x := rfl
@[simp] theorem setFreeReads_pending (x : Nat) : (s.setFreeReads x).pending = s.pending := rfl
@[simp] theorem setFreeReads_setFreeReads (x y : Nat) : (s.setFreeReads x).setFreeReads y = s.setFreeReads y := rfl
@[simp] theorem setFreeReads_self : s.setFreeReads s.freeReads = s := rfl

@[simp] theorem setPending_pins (x : List Instr) : (s.setPending x).pins = s.pins := rfl
@[simp] theorem setPending_ftb (x : List Instr) : (s.setPending x).ftb = s.ftb := rfl
@[simp] theorem setPending_tmon (x : List Instr) : (s.setPending x).tmon = s.tmon := rfl
@[simp] theorem setPending_lsb (x : List Instr) : (s.setPending x).lsb = s.lsb := rfl
@[simp] theorem setPending_lest (x : List Instr) : (s.setPending x).lest = s.lest := rfl
@[simp] theorem setPending_sseq (x : List Instr) : (s.setPending x).sseq = s.sseq := rfl
@[simp] theorem setPending_slc (x : List Instr) : (s.setPending x).slc = s.slc := rfl
@[simp] theorem setPending_fc (x : List Instr) : (s.setPending x).fc = s.fc := rfl
@[simp] theorem setPending_sid (x : List Instr) : (s.setPending x).sid = s.sid := rfl
@[simp] theorem setPending_ptab (x : List Instr) : (s.setPending x).ptab = s.ptab := rfl
@[simp] theorem setPending_tge (x : List Instr) : (s.setPending x).tge = s.tge := rfl
@[simp] theorem setPending_drvp (x : List Instr) : (s.setPending x).drvp = s.drvp := rfl
@[simp] theorem setPending_csto (x : List Instr) : (s.setPending x).csto = s.csto := rfl
@[simp] theorem setPending_evu (x : List Instr) : (s.setPending x).evu = s.evu := rfl
@[simp] theorem setPending_freeReads (x : List Instr) : (s.setPending x).freeReads = s.freeReads := rfl
@[simp] theorem setPending_pending (x : List Instr) : (s.setPending x).pending = x := rfl
@[simp] theorem setPending_setPending (x y : List Instr) : (s.setPending x).setPending y = s.setPending y := rfl
@[simp] theorem setPending_self : s.setPending s.pending = s := rfl

end Sys2Proof.Machine.State

namespace Sys2Proof.Config

/-- The fused UID is one that R90 allows. -/
theorem fusedUid_toNat : fusedUid.toNat = fusedUidIndex.val + 1 ∧ fusedUidIndex.val + 1 < 2 ^ 64 - 1 := by
  have h := fusedUidIndex.isLt
  refine ⟨?_, by omega⟩
  simp only [fusedUid, BitVec.toNat_ofNat]
  omega

end Sys2Proof.Config
end

