-- ==== Sys2Proof/Laws/Frames.lean ====
section
/-! SUPPORT. For each shared operation, the blocks it leaves as they are, said once: no later proof unfolds it for that. -/

namespace Sys2Proof.Machine

@[simp] theorem handEvents_frame (p : EventSet) (s : State) :
    (handEvents p s).pins = s.pins ∧ (handEvents p s).ftb = s.ftb ∧ (handEvents p s).tmon = s.tmon ∧
    (handEvents p s).lsb = s.lsb ∧ (handEvents p s).lest = s.lest ∧ (handEvents p s).sseq = s.sseq ∧
    (handEvents p s).slc = s.slc ∧ (handEvents p s).fc = s.fc ∧ (handEvents p s).sid = s.sid ∧
    (handEvents p s).ptab = s.ptab ∧ (handEvents p s).tge = s.tge ∧ (handEvents p s).drvp = s.drvp ∧
    (handEvents p s).csto = s.csto ∧ (handEvents p s).freeReads = s.freeReads ∧ (handEvents p s).pending = s.pending := by
  simp [handEvents]

@[simp] theorem takeFlags_frame (s : State) :
    (s.takeFlags).pins = s.pins ∧ (s.takeFlags).ftb = s.ftb ∧ (s.takeFlags).tmon = s.tmon ∧ (s.takeFlags).lsb = s.lsb ∧
    (s.takeFlags).sseq = s.sseq ∧ (s.takeFlags).slc = s.slc ∧ (s.takeFlags).fc = s.fc ∧ (s.takeFlags).sid = s.sid ∧
    (s.takeFlags).ptab = s.ptab ∧ (s.takeFlags).tge = s.tge ∧ (s.takeFlags).drvp = s.drvp ∧ (s.takeFlags).csto = s.csto ∧
    (s.takeFlags).evu = s.evu ∧ (s.takeFlags).freeReads = s.freeReads ∧ (s.takeFlags).pending = s.pending := by
  simp [State.takeFlags]

@[simp] theorem returnFlags_frame (s : State) (l : Rgb Nat) :
    (s.returnFlags l).pins = s.pins ∧ (s.returnFlags l).ftb = s.ftb ∧ (s.returnFlags l).tmon = s.tmon ∧
    (s.returnFlags l).lsb = s.lsb ∧ (s.returnFlags l).sseq = s.sseq ∧ (s.returnFlags l).slc = s.slc ∧
    (s.returnFlags l).fc = s.fc ∧ (s.returnFlags l).sid = s.sid ∧ (s.returnFlags l).ptab = s.ptab ∧
    (s.returnFlags l).drvp = s.drvp ∧ (s.returnFlags l).csto = s.csto ∧ (s.returnFlags l).evu = s.evu ∧
    (s.returnFlags l).freeReads = s.freeReads ∧ (s.returnFlags l).pending = s.pending := by
  simp [State.returnFlags]

@[simp] theorem evaluate_frame (s : State) (e : Option Entry) :
    (s.evaluate e).pins = s.pins ∧ (s.evaluate e).ftb = s.ftb ∧ (s.evaluate e).tmon = s.tmon ∧
    (s.evaluate e).lsb = s.lsb ∧ (s.evaluate e).lest = s.lest ∧ (s.evaluate e).sseq = s.sseq ∧ (s.evaluate e).fc = s.fc ∧
    (s.evaluate e).sid = s.sid ∧ (s.evaluate e).ptab = s.ptab ∧ (s.evaluate e).tge = s.tge ∧
    (s.evaluate e).drvp = s.drvp ∧ (s.evaluate e).csto = s.csto ∧ (s.evaluate e).evu = s.evu ∧
    (s.evaluate e).freeReads = s.freeReads ∧ (s.evaluate e).pending = s.pending := by
  dsimp only [State.evaluate]
  repeat' split
  all_goals simp

@[simp] theorem settle_frame (s : State) :
    (settle s).pins = s.pins ∧ (settle s).ftb = s.ftb ∧ (settle s).tmon = s.tmon ∧ (settle s).lsb = s.lsb ∧
    (settle s).sseq = s.sseq ∧ (settle s).fc = s.fc ∧ (settle s).sid = s.sid ∧ (settle s).ptab = s.ptab ∧
    (settle s).drvp = s.drvp ∧ (settle s).csto = s.csto ∧ (settle s).freeReads = s.freeReads ∧
    (settle s).pending = s.pending := by
  dsimp only [settle]
  repeat' split
  all_goals simp

@[simp] theorem askUpdate_frame (s : State) :
    (askUpdate s).pins = s.pins ∧ (askUpdate s).ftb = s.ftb ∧ (askUpdate s).tmon = s.tmon ∧ (askUpdate s).lsb = s.lsb ∧
    (askUpdate s).lest = s.lest ∧ (askUpdate s).sseq = s.sseq ∧ (askUpdate s).fc = s.fc ∧ (askUpdate s).sid = s.sid ∧
    (askUpdate s).tge = s.tge ∧ (askUpdate s).drvp = s.drvp ∧ (askUpdate s).csto = s.csto ∧ (askUpdate s).evu = s.evu ∧
    (askUpdate s).freeReads = s.freeReads ∧ (askUpdate s).pending = s.pending := by
  dsimp only [askUpdate]
  repeat' split
  all_goals simp

@[simp] theorem actOnSlot_frame (a : Addr) (f : PeerSlot → PeerSlot) (s : State) :
    (actOnSlot a f s).pins = s.pins ∧ (actOnSlot a f s).ftb = s.ftb ∧ (actOnSlot a f s).tmon = s.tmon ∧
    (actOnSlot a f s).lsb = s.lsb ∧ (actOnSlot a f s).lest = s.lest ∧ (actOnSlot a f s).sseq = s.sseq ∧
    (actOnSlot a f s).fc = s.fc ∧ (actOnSlot a f s).sid = s.sid ∧ (actOnSlot a f s).tge = s.tge ∧
    (actOnSlot a f s).drvp = s.drvp ∧ (actOnSlot a f s).csto = s.csto ∧ (actOnSlot a f s).evu = s.evu ∧
    (actOnSlot a f s).freeReads = s.freeReads ∧ (actOnSlot a f s).pending = s.pending := by
  simp [actOnSlot]

@[simp] theorem peerReport_frame (a : Addr) (lum : Rgb Nat) (flags : Byte) (s : State) :
    (peerReport a lum flags s).pins = s.pins ∧ (peerReport a lum flags s).ftb = s.ftb ∧
    (peerReport a lum flags s).tmon = s.tmon ∧ (peerReport a lum flags s).lsb = s.lsb ∧
    (peerReport a lum flags s).lest = s.lest ∧ (peerReport a lum flags s).sseq = s.sseq ∧
    (peerReport a lum flags s).fc = s.fc ∧ (peerReport a lum flags s).sid = s.sid ∧
    (peerReport a lum flags s).tge = s.tge ∧ (peerReport a lum flags s).drvp = s.drvp ∧
    (peerReport a lum flags s).csto = s.csto ∧ (peerReport a lum flags s).evu = s.evu ∧
    (peerReport a lum flags s).freeReads = s.freeReads ∧ (peerReport a lum flags s).pending = s.pending := by
  simp [peerReport]

@[simp] theorem signOfLife_frame (x : Byte) (s : State) :
    (signOfLife x s).pins = s.pins ∧ (signOfLife x s).ftb = s.ftb ∧ (signOfLife x s).tmon = s.tmon ∧
    (signOfLife x s).lsb = s.lsb ∧ (signOfLife x s).lest = s.lest ∧ (signOfLife x s).sseq = s.sseq ∧
    (signOfLife x s).fc = s.fc ∧ (signOfLife x s).sid = s.sid ∧ (signOfLife x s).tge = s.tge ∧
    (signOfLife x s).drvp = s.drvp ∧ (signOfLife x s).csto = s.csto ∧ (signOfLife x s).evu = s.evu ∧
    (signOfLife x s).freeReads = s.freeReads ∧ (signOfLife x s).pending = s.pending := by
  dsimp only [signOfLife]
  repeat' split
  all_goals simp

@[simp] theorem agePeers_frame (p : Params) (s : State) :
    (agePeers p s).pins = s.pins ∧ (agePeers p s).ftb = s.ftb ∧ (agePeers p s).tmon = s.tmon ∧
    (agePeers p s).lsb = s.lsb ∧ (agePeers p s).lest = s.lest ∧ (agePeers p s).sseq = s.sseq ∧
    (agePeers p s).slc = s.slc ∧ (agePeers p s).fc = s.fc ∧ (agePeers p s).sid = s.sid ∧ (agePeers p s).tge = s.tge ∧
    (agePeers p s).drvp = s.drvp ∧ (agePeers p s).csto = s.csto ∧ (agePeers p s).evu = s.evu ∧
    (agePeers p s).freeReads = s.freeReads ∧ (agePeers p s).pending = s.pending := by
  simp [agePeers]

@[simp] theorem staleSlots_frame (p : Params) (s : State) :
    (staleSlots p s).pins = s.pins ∧ (staleSlots p s).ftb = s.ftb ∧ (staleSlots p s).tmon = s.tmon ∧
    (staleSlots p s).lsb = s.lsb ∧ (staleSlots p s).lest = s.lest ∧ (staleSlots p s).sseq = s.sseq ∧
    (staleSlots p s).slc = s.slc ∧ (staleSlots p s).fc = s.fc ∧ (staleSlots p s).sid = s.sid ∧
    (staleSlots p s).tge = s.tge ∧ (staleSlots p s).drvp = s.drvp ∧ (staleSlots p s).csto = s.csto ∧
    (staleSlots p s).evu = s.evu ∧ (staleSlots p s).freeReads = s.freeReads ∧
    (staleSlots p s).pending = s.pending := by
  simp [staleSlots]

@[simp] theorem askOutcome_frame (a : Addr) (o : AskOutcome) (s : State) :
    (askOutcome a o s).pins = s.pins ∧ (askOutcome a o s).ftb = s.ftb ∧ (askOutcome a o s).tmon = s.tmon ∧
    (askOutcome a o s).lsb = s.lsb ∧ (askOutcome a o s).lest = s.lest ∧ (askOutcome a o s).sseq = s.sseq ∧
    (askOutcome a o s).fc = s.fc ∧ (askOutcome a o s).sid = s.sid ∧ (askOutcome a o s).tge = s.tge ∧
    (askOutcome a o s).drvp = s.drvp ∧ (askOutcome a o s).csto = s.csto ∧ (askOutcome a o s).evu = s.evu ∧
    (askOutcome a o s).freeReads = s.freeReads ∧ (askOutcome a o s).pending = s.pending := by
  simp [askOutcome]

@[simp] theorem askCompleted_frame (s : State) :
    (askCompleted s).pins = s.pins ∧ (askCompleted s).ftb = s.ftb ∧ (askCompleted s).tmon = s.tmon ∧
    (askCompleted s).lsb = s.lsb ∧ (askCompleted s).lest = s.lest ∧ (askCompleted s).sseq = s.sseq ∧
    (askCompleted s).slc = s.slc ∧ (askCompleted s).fc = s.fc ∧ (askCompleted s).sid = s.sid ∧
    (askCompleted s).tge = s.tge ∧ (askCompleted s).drvp = s.drvp ∧ (askCompleted s).csto = s.csto ∧
    (askCompleted s).evu = s.evu ∧ (askCompleted s).freeReads = s.freeReads ∧ (askCompleted s).pending = s.pending := by
  simp [askCompleted]

@[simp] theorem changeIdentity_frame (new : IdState) (s : State) :
    (changeIdentity new s).pins = s.pins ∧ (changeIdentity new s).ftb = s.ftb ∧ (changeIdentity new s).tmon = s.tmon ∧
    (changeIdentity new s).lsb = s.lsb ∧ (changeIdentity new s).lest = s.lest ∧ (changeIdentity new s).sseq = s.sseq ∧
    (changeIdentity new s).fc = s.fc ∧ (changeIdentity new s).tge = s.tge ∧ (changeIdentity new s).drvp = s.drvp ∧
    (changeIdentity new s).csto = s.csto ∧ (changeIdentity new s).freeReads = s.freeReads ∧
    (changeIdentity new s).pending = s.pending := by
  simp [changeIdentity]

@[simp] theorem withdrawStake_frame (s : State) :
    (withdrawStake s).pins = s.pins ∧ (withdrawStake s).ftb = s.ftb ∧ (withdrawStake s).tmon = s.tmon ∧
    (withdrawStake s).lsb = s.lsb ∧ (withdrawStake s).lest = s.lest ∧ (withdrawStake s).sseq = s.sseq ∧
    (withdrawStake s).fc = s.fc ∧ (withdrawStake s).sid = s.sid ∧ (withdrawStake s).ptab = s.ptab ∧
    (withdrawStake s).tge = s.tge ∧ (withdrawStake s).drvp = s.drvp ∧ (withdrawStake s).csto = s.csto ∧
    (withdrawStake s).evu = s.evu ∧ (withdrawStake s).freeReads = s.freeReads ∧
    (withdrawStake s).pending = s.pending := by
  simp [withdrawStake]

@[simp] theorem enterUnaddressed_frame (s : State) :
    (enterUnaddressed s).pins = s.pins ∧ (enterUnaddressed s).ftb = s.ftb ∧ (enterUnaddressed s).tmon = s.tmon ∧
    (enterUnaddressed s).lsb = s.lsb ∧ (enterUnaddressed s).lest = s.lest ∧ (enterUnaddressed s).sseq = s.sseq ∧
    (enterUnaddressed s).fc = s.fc ∧ (enterUnaddressed s).tge = s.tge ∧ (enterUnaddressed s).drvp = s.drvp ∧
    (enterUnaddressed s).csto = s.csto ∧ (enterUnaddressed s).freeReads = s.freeReads ∧
    (enterUnaddressed s).pending = s.pending := by
  simp [enterUnaddressed]

@[simp] theorem chooseCandidate_frame (a : Addr) (all : Bool) (s : State) :
    (chooseCandidate a all s).pins = s.pins ∧ (chooseCandidate a all s).ftb = s.ftb ∧
    (chooseCandidate a all s).tmon = s.tmon ∧ (chooseCandidate a all s).lsb = s.lsb ∧
    (chooseCandidate a all s).lest = s.lest ∧ (chooseCandidate a all s).sseq = s.sseq ∧
    (chooseCandidate a all s).fc = s.fc ∧ (chooseCandidate a all s).tge = s.tge ∧
    (chooseCandidate a all s).drvp = s.drvp ∧ (chooseCandidate a all s).csto = s.csto ∧
    (chooseCandidate a all s).freeReads = s.freeReads ∧ (chooseCandidate a all s).pending = s.pending := by
  dsimp only [chooseCandidate]
  repeat' split
  all_goals simp

@[simp] theorem claimFromSeed_frame (s : State) :
    (claimFromSeed s).pins = s.pins ∧ (claimFromSeed s).ftb = s.ftb ∧ (claimFromSeed s).tmon = s.tmon ∧
    (claimFromSeed s).lsb = s.lsb ∧ (claimFromSeed s).lest = s.lest ∧ (claimFromSeed s).sseq = s.sseq ∧
    (claimFromSeed s).fc = s.fc ∧ (claimFromSeed s).tge = s.tge ∧ (claimFromSeed s).drvp = s.drvp ∧
    (claimFromSeed s).csto = s.csto ∧ (claimFromSeed s).freeReads = s.freeReads ∧
    (claimFromSeed s).pending = s.pending := by
  simp [claimFromSeed]

@[simp] theorem giveUp_frame (c : Addr) (s : State) :
    (giveUp c s).pins = s.pins ∧ (giveUp c s).ftb = s.ftb ∧ (giveUp c s).tmon = s.tmon ∧ (giveUp c s).lsb = s.lsb ∧
    (giveUp c s).lest = s.lest ∧ (giveUp c s).sseq = s.sseq ∧ (giveUp c s).fc = s.fc ∧ (giveUp c s).tge = s.tge ∧
    (giveUp c s).drvp = s.drvp ∧ (giveUp c s).csto = s.csto ∧ (giveUp c s).freeReads = s.freeReads ∧
    (giveUp c s).pending = s.pending := by
  dsimp only [giveUp]
  repeat' split
  all_goals simp

@[simp] theorem takeAddress_frame (c : Addr) (s : State) :
    (takeAddress c s).pins = s.pins ∧ (takeAddress c s).ftb = s.ftb ∧ (takeAddress c s).tmon = s.tmon ∧
    (takeAddress c s).lsb = s.lsb ∧ (takeAddress c s).lest = s.lest ∧ (takeAddress c s).sseq = s.sseq ∧
    (takeAddress c s).fc = s.fc ∧ (takeAddress c s).tge = s.tge ∧ (takeAddress c s).drvp = s.drvp ∧
    (takeAddress c s).csto = s.csto ∧ (takeAddress c s).freeReads = s.freeReads ∧
    (takeAddress c s).pending = s.pending := by
  simp [takeAddress]

@[simp] theorem yieldAddress_frame (a : Addr) (s : State) :
    (yieldAddress a s).pins = s.pins ∧ (yieldAddress a s).ftb = s.ftb ∧ (yieldAddress a s).tmon = s.tmon ∧
    (yieldAddress a s).lsb = s.lsb ∧ (yieldAddress a s).lest = s.lest ∧ (yieldAddress a s).sseq = s.sseq ∧
    (yieldAddress a s).fc = s.fc ∧ (yieldAddress a s).tge = s.tge ∧ (yieldAddress a s).drvp = s.drvp ∧
    (yieldAddress a s).csto = s.csto ∧ (yieldAddress a s).freeReads = s.freeReads ∧
    (yieldAddress a s).pending = s.pending := by
  dsimp only [yieldAddress]
  repeat' split
  all_goals simp

@[simp] theorem slotEmptied_frame (s : State) :
    (slotEmptied s).pins = s.pins ∧ (slotEmptied s).ftb = s.ftb ∧ (slotEmptied s).tmon = s.tmon ∧
    (slotEmptied s).lsb = s.lsb ∧ (slotEmptied s).lest = s.lest ∧ (slotEmptied s).sseq = s.sseq ∧
    (slotEmptied s).fc = s.fc ∧ (slotEmptied s).tge = s.tge ∧ (slotEmptied s).drvp = s.drvp ∧
    (slotEmptied s).csto = s.csto ∧ (slotEmptied s).freeReads = s.freeReads ∧
    (slotEmptied s).pending = s.pending := by
  dsimp only [slotEmptied]
  repeat' split
  all_goals simp

@[simp] theorem takeHandOff_frame (s : State) :
    (takeHandOff s).pins = s.pins ∧ (takeHandOff s).ftb = s.ftb ∧ (takeHandOff s).tmon = s.tmon ∧
    (takeHandOff s).lsb = s.lsb ∧ (takeHandOff s).lest = s.lest ∧ (takeHandOff s).sseq = s.sseq ∧
    (takeHandOff s).fc = s.fc ∧ (takeHandOff s).tge = s.tge ∧ (takeHandOff s).drvp = s.drvp ∧
    (takeHandOff s).csto = s.csto ∧ (takeHandOff s).freeReads = s.freeReads ∧
    (takeHandOff s).pending = s.pending := by
  dsimp only [takeHandOff]
  repeat' split
  all_goals simp

@[simp] theorem handOverEmptied_frame (w : Bool) (s : State) :
    (handOverEmptied w s).pins = s.pins ∧ (handOverEmptied w s).ftb = s.ftb ∧ (handOverEmptied w s).tmon = s.tmon ∧
    (handOverEmptied w s).lsb = s.lsb ∧ (handOverEmptied w s).lest = s.lest ∧ (handOverEmptied w s).sseq = s.sseq ∧
    (handOverEmptied w s).fc = s.fc ∧ (handOverEmptied w s).tge = s.tge ∧ (handOverEmptied w s).drvp = s.drvp ∧
    (handOverEmptied w s).csto = s.csto ∧ (handOverEmptied w s).freeReads = s.freeReads ∧
    (handOverEmptied w s).pending = s.pending := by
  dsimp only [handOverEmptied]
  repeat' split
  all_goals simp

@[simp] theorem duplicateTest_frame (src : Byte) (s : State) :
    (duplicateTest src s).pins = s.pins ∧ (duplicateTest src s).ftb = s.ftb ∧ (duplicateTest src s).tmon = s.tmon ∧
    (duplicateTest src s).lsb = s.lsb ∧ (duplicateTest src s).lest = s.lest ∧ (duplicateTest src s).sseq = s.sseq ∧
    (duplicateTest src s).fc = s.fc ∧ (duplicateTest src s).ptab = s.ptab ∧ (duplicateTest src s).tge = s.tge ∧
    (duplicateTest src s).drvp = s.drvp ∧ (duplicateTest src s).csto = s.csto ∧
    (duplicateTest src s).freeReads = s.freeReads ∧ (duplicateTest src s).pending = s.pending := by
  dsimp only [duplicateTest]
  repeat' split
  all_goals simp

@[simp] theorem resumeChoice_frame (s : State) :
    (resumeChoice s).pins = s.pins ∧ (resumeChoice s).ftb = s.ftb ∧ (resumeChoice s).tmon = s.tmon ∧
    (resumeChoice s).lsb = s.lsb ∧ (resumeChoice s).lest = s.lest ∧ (resumeChoice s).sseq = s.sseq ∧
    (resumeChoice s).fc = s.fc ∧ (resumeChoice s).tge = s.tge ∧ (resumeChoice s).drvp = s.drvp ∧
    (resumeChoice s).csto = s.csto ∧ (resumeChoice s).freeReads = s.freeReads ∧ (resumeChoice s).pending = s.pending := by
  dsimp only [resumeChoice]
  repeat' split
  all_goals simp

@[simp] theorem listenEnd_frame (s : State) :
    (listenEnd s).pins = s.pins ∧ (listenEnd s).ftb = s.ftb ∧ (listenEnd s).tmon = s.tmon ∧ (listenEnd s).lsb = s.lsb ∧
    (listenEnd s).lest = s.lest ∧ (listenEnd s).sseq = s.sseq ∧ (listenEnd s).fc = s.fc ∧ (listenEnd s).tge = s.tge ∧
    (listenEnd s).drvp = s.drvp ∧ (listenEnd s).csto = s.csto ∧ (listenEnd s).freeReads = s.freeReads ∧
    (listenEnd s).pending = s.pending := by
  dsimp only [listenEnd]
  repeat' split
  all_goals simp

@[simp] theorem linkHandOff_frame (old : LinkState) (s : State) :
    (linkHandOff old s).pins = s.pins ∧ (linkHandOff old s).ftb = s.ftb ∧ (linkHandOff old s).tmon = s.tmon ∧
    (linkHandOff old s).lsb = s.lsb ∧ (linkHandOff old s).lest = s.lest ∧ (linkHandOff old s).sseq = s.sseq ∧
    (linkHandOff old s).fc = s.fc ∧ (linkHandOff old s).tge = s.tge ∧ (linkHandOff old s).drvp = s.drvp ∧
    (linkHandOff old s).csto = s.csto ∧ (linkHandOff old s).freeReads = s.freeReads ∧
    (linkHandOff old s).pending = s.pending := by
  dsimp only [linkHandOff]
  repeat' split
  all_goals simp

@[simp] theorem confine_frame (f : Fc → Fc) (s : State) :
    (confine f s).pins = s.pins ∧ (confine f s).ftb = s.ftb ∧ (confine f s).tmon = s.tmon ∧ (confine f s).lsb = s.lsb ∧
    (confine f s).lest = s.lest ∧ (confine f s).sseq = s.sseq ∧ (confine f s).tge = s.tge ∧ (confine f s).drvp = s.drvp ∧
    (confine f s).csto = s.csto ∧ (confine f s).freeReads = s.freeReads ∧ (confine f s).pending = s.pending := by
  simp [confine]

@[simp] theorem tickSseq_frame (s : State) :
    (tickSseq s).pins = s.pins ∧ (tickSseq s).ftb = s.ftb ∧ (tickSseq s).tmon = s.tmon ∧ (tickSseq s).lsb = s.lsb ∧
    (tickSseq s).lest = s.lest ∧ (tickSseq s).slc = s.slc ∧ (tickSseq s).fc = s.fc ∧ (tickSseq s).sid = s.sid ∧
    (tickSseq s).ptab = s.ptab ∧ (tickSseq s).tge = s.tge ∧ (tickSseq s).drvp = s.drvp ∧ (tickSseq s).csto = s.csto ∧
    (tickSseq s).evu = s.evu ∧ (tickSseq s).freeReads = s.freeReads ∧ (tickSseq s).pending = s.pending := by
  dsimp only [tickSseq]
  repeat' split
  all_goals simp

@[simp] theorem tickEngine_frame (f : Bool) (s : State) :
    (tickEngine f s).pins = s.pins ∧ (tickEngine f s).ftb = s.ftb ∧ (tickEngine f s).tmon = s.tmon ∧
    (tickEngine f s).lsb = s.lsb ∧ (tickEngine f s).lest = s.lest ∧ (tickEngine f s).sseq = s.sseq ∧
    (tickEngine f s).slc = s.slc ∧ (tickEngine f s).fc = s.fc ∧ (tickEngine f s).sid = s.sid ∧
    (tickEngine f s).ptab = s.ptab ∧ (tickEngine f s).csto = s.csto ∧ (tickEngine f s).evu = s.evu ∧
    (tickEngine f s).freeReads = s.freeReads ∧ (tickEngine f s).pending = s.pending := by
  dsimp only [tickEngine]
  repeat' split
  all_goals simp

@[simp] theorem removeSlots_frame (w : Bool) (p : Params) (s : State) :
    (removeSlots w p s).pins = s.pins ∧ (removeSlots w p s).ftb = s.ftb ∧ (removeSlots w p s).tmon = s.tmon ∧
    (removeSlots w p s).lsb = s.lsb ∧ (removeSlots w p s).lest = s.lest ∧ (removeSlots w p s).sseq = s.sseq ∧
    (removeSlots w p s).fc = s.fc ∧ (removeSlots w p s).tge = s.tge ∧ (removeSlots w p s).drvp = s.drvp ∧
    (removeSlots w p s).csto = s.csto ∧ (removeSlots w p s).freeReads = s.freeReads ∧
    (removeSlots w p s).pending = s.pending := by
  dsimp only [removeSlots]
  repeat' split
  all_goals simp

@[simp] theorem tickPeers_frame (w : Bool) (s : State) :
    (tickPeers w s).pins = s.pins ∧ (tickPeers w s).ftb = s.ftb ∧ (tickPeers w s).tmon = s.tmon ∧
    (tickPeers w s).lsb = s.lsb ∧ (tickPeers w s).lest = s.lest ∧ (tickPeers w s).sseq = s.sseq ∧
    (tickPeers w s).fc = s.fc ∧ (tickPeers w s).tge = s.tge ∧ (tickPeers w s).drvp = s.drvp ∧
    (tickPeers w s).csto = s.csto ∧ (tickPeers w s).freeReads = s.freeReads ∧
    (tickPeers w s).pending = s.pending := by
  dsimp only [tickPeers]
  repeat' split
  all_goals simp

@[simp] theorem slotRemoval_frame (s : State) :
    (slotRemoval s).pins = s.pins ∧ (slotRemoval s).ftb = s.ftb ∧ (slotRemoval s).tmon = s.tmon ∧
    (slotRemoval s).lsb = s.lsb ∧ (slotRemoval s).lest = s.lest ∧ (slotRemoval s).sseq = s.sseq ∧
    (slotRemoval s).fc = s.fc ∧ (slotRemoval s).tge = s.tge ∧ (slotRemoval s).drvp = s.drvp ∧
    (slotRemoval s).csto = s.csto ∧ (slotRemoval s).freeReads = s.freeReads ∧
    (slotRemoval s).pending = s.pending := by
  dsimp only [slotRemoval]
  repeat' split
  all_goals simp

@[simp] theorem tickIn_frame (f w : Bool) (s : State) :
    (tickIn f w s).pins = s.pins ∧ (tickIn f w s).ftb = s.ftb ∧ (tickIn f w s).tmon = s.tmon ∧
    (tickIn f w s).lsb = s.lsb ∧ (tickIn f w s).lest = s.lest ∧ (tickIn f w s).fc = s.fc ∧
    (tickIn f w s).csto = s.csto ∧ (tickIn f w s).freeReads = s.freeReads ∧ (tickIn f w s).pending = s.pending := by
  simp [tickIn]

@[simp] theorem countTick_frame (s : State) :
    (countTick s).pins = s.pins ∧ (countTick s).ftb = s.ftb ∧ (countTick s).tmon = s.tmon ∧
    (countTick s).lsb = s.lsb ∧ (countTick s).lest = s.lest ∧ (countTick s).sseq = s.sseq ∧
    (countTick s).slc = s.slc ∧ (countTick s).fc = s.fc ∧ (countTick s).sid = s.sid ∧ (countTick s).ptab = s.ptab ∧
    (countTick s).tge = s.tge ∧ (countTick s).drvp = s.drvp ∧ (countTick s).csto = s.csto ∧
    (countTick s).evu = s.evu ∧ (countTick s).pending = s.pending := by
  dsimp only [countTick]
  repeat' split
  all_goals simp

@[simp] theorem tick_frame (s : State) :
    (tick s).pins = s.pins ∧ (tick s).ftb = s.ftb ∧ (tick s).tmon = s.tmon ∧ (tick s).lsb = s.lsb ∧
    (tick s).lest = s.lest ∧ (tick s).fc = s.fc ∧ (tick s).csto = s.csto ∧ (tick s).pending = s.pending := by
  simp [tick]

@[simp] theorem fsyncEdge_frame (t : Nat) (s : State) :
    (fsyncEdge t s).pins = s.pins ∧ (fsyncEdge t s).tmon = s.tmon ∧ (fsyncEdge t s).lsb = s.lsb ∧
    (fsyncEdge t s).fc = s.fc ∧ (fsyncEdge t s).csto = s.csto ∧ (fsyncEdge t s).pending = s.pending := by
  dsimp only [fsyncEdge]
  repeat' split
  all_goals simp

@[simp] theorem substituteTick_frame (s : State) :
    (substituteTick s).pins = s.pins ∧ (substituteTick s).tmon = s.tmon ∧ (substituteTick s).lsb = s.lsb ∧
    (substituteTick s).fc = s.fc ∧ (substituteTick s).csto = s.csto ∧ (substituteTick s).pending = s.pending := by
  dsimp only [substituteTick]
  repeat' split
  all_goals simp

@[simp] theorem slotStale_frame (s : State) :
    (slotStale s).pins = s.pins ∧ (slotStale s).ftb = s.ftb ∧ (slotStale s).tmon = s.tmon ∧ (slotStale s).lsb = s.lsb ∧
    (slotStale s).sseq = s.sseq ∧ (slotStale s).fc = s.fc ∧ (slotStale s).sid = s.sid ∧ (slotStale s).drvp = s.drvp ∧
    (slotStale s).csto = s.csto ∧ (slotStale s).freeReads = s.freeReads ∧ (slotStale s).pending = s.pending := by
  dsimp only [slotStale]
  repeat' split
  all_goals simp

@[simp] theorem busNext_frame (s : State) :
    (busNext s).pins = s.pins ∧ (busNext s).ftb = s.ftb ∧ (busNext s).tmon = s.tmon ∧ (busNext s).lest = s.lest ∧
    (busNext s).slc = s.slc ∧ (busNext s).fc = s.fc ∧ (busNext s).sid = s.sid ∧ (busNext s).ptab = s.ptab ∧
    (busNext s).tge = s.tge ∧ (busNext s).drvp = s.drvp ∧ (busNext s).csto = s.csto ∧ (busNext s).evu = s.evu ∧
    (busNext s).freeReads = s.freeReads ∧ (busNext s).pending = s.pending := by
  dsimp only [busNext]
  repeat' split
  all_goals simp

@[simp] theorem handTemperature_frame (tf : Int) (b : Bool) (s : State) :
    (handTemperature tf b s).pins = s.pins ∧ (handTemperature tf b s).ftb = s.ftb ∧
    (handTemperature tf b s).tmon = s.tmon ∧ (handTemperature tf b s).lsb = s.lsb ∧ (handTemperature tf b s).slc = s.slc ∧
    (handTemperature tf b s).fc = s.fc ∧ (handTemperature tf b s).sid = s.sid ∧ (handTemperature tf b s).ptab = s.ptab ∧
    (handTemperature tf b s).tge = s.tge ∧ (handTemperature tf b s).drvp = s.drvp ∧
    (handTemperature tf b s).csto = s.csto ∧ (handTemperature tf b s).evu = s.evu ∧
    (handTemperature tf b s).freeReads = s.freeReads ∧ (handTemperature tf b s).pending = s.pending := by
  dsimp only [handTemperature]
  repeat' split
  all_goals simp

@[simp] theorem temperatureRead_frame (o : Option Int) (s : State) :
    (temperatureRead o s).pins = s.pins ∧ (temperatureRead o s).ftb = s.ftb ∧ (temperatureRead o s).fc = s.fc ∧
    (temperatureRead o s).sid = s.sid ∧ (temperatureRead o s).ptab = s.ptab ∧ (temperatureRead o s).drvp = s.drvp ∧
    (temperatureRead o s).csto = s.csto ∧ (temperatureRead o s).freeReads = s.freeReads ∧
    (temperatureRead o s).pending = s.pending := by
  dsimp only [temperatureRead]
  repeat' split
  all_goals simp

@[simp] theorem windowOpen_frame (s : State) :
    (windowOpen s).ftb = s.ftb ∧ (windowOpen s).tmon = s.tmon ∧ (windowOpen s).lest = s.lest ∧
    (windowOpen s).slc = s.slc ∧ (windowOpen s).fc = s.fc ∧ (windowOpen s).sid = s.sid ∧ (windowOpen s).ptab = s.ptab ∧
    (windowOpen s).tge = s.tge ∧ (windowOpen s).drvp = s.drvp ∧ (windowOpen s).csto = s.csto ∧
    (windowOpen s).evu = s.evu ∧ (windowOpen s).freeReads = s.freeReads ∧ (windowOpen s).pending = s.pending := by
  dsimp only [windowOpen]
  repeat' split
  all_goals simp

@[simp] theorem windowClose_frame (s : State) :
    (windowClose s).ftb = s.ftb ∧ (windowClose s).tmon = s.tmon ∧ (windowClose s).fc = s.fc ∧
    (windowClose s).sid = s.sid ∧ (windowClose s).ptab = s.ptab ∧ (windowClose s).drvp = s.drvp ∧
    (windowClose s).csto = s.csto ∧ (windowClose s).freeReads = s.freeReads ∧ (windowClose s).pending = s.pending := by
  dsimp only [windowClose]
  repeat' split
  all_goals simp

@[simp] theorem classifyCount_frame (p : Params) (o : Option (BitVec 16)) (s : State) :
    (classifyCount p o s).pins = s.pins ∧ (classifyCount p o s).ftb = s.ftb ∧ (classifyCount p o s).tmon = s.tmon ∧
    (classifyCount p o s).lsb = s.lsb ∧ (classifyCount p o s).slc = s.slc ∧ (classifyCount p o s).fc = s.fc ∧
    (classifyCount p o s).sid = s.sid ∧ (classifyCount p o s).ptab = s.ptab ∧ (classifyCount p o s).tge = s.tge ∧
    (classifyCount p o s).drvp = s.drvp ∧ (classifyCount p o s).csto = s.csto ∧ (classifyCount p o s).evu = s.evu ∧
    (classifyCount p o s).freeReads = s.freeReads ∧ (classifyCount p o s).pending = s.pending := by
  dsimp only [classifyCount]
  repeat' split
  all_goals simp

@[simp] theorem countOutcome_frame (o : Option (BitVec 16)) (s : State) :
    (countOutcome o s).pins = s.pins ∧ (countOutcome o s).ftb = s.ftb ∧ (countOutcome o s).tmon = s.tmon ∧
    (countOutcome o s).lsb = s.lsb ∧ (countOutcome o s).slc = s.slc ∧ (countOutcome o s).fc = s.fc ∧
    (countOutcome o s).sid = s.sid ∧ (countOutcome o s).ptab = s.ptab ∧ (countOutcome o s).tge = s.tge ∧
    (countOutcome o s).drvp = s.drvp ∧ (countOutcome o s).csto = s.csto ∧ (countOutcome o s).evu = s.evu ∧
    (countOutcome o s).freeReads = s.freeReads ∧ (countOutcome o s).pending = s.pending := by
  dsimp only [countOutcome]
  repeat' split
  all_goals simp

@[simp] theorem countArrival_frame (o : Option (BitVec 16)) (s : State) :
    (countArrival o s).pins = s.pins ∧ (countArrival o s).ftb = s.ftb ∧ (countArrival o s).tmon = s.tmon ∧
    (countArrival o s).fc = s.fc ∧ (countArrival o s).sid = s.sid ∧ (countArrival o s).ptab = s.ptab ∧
    (countArrival o s).drvp = s.drvp ∧ (countArrival o s).csto = s.csto ∧ (countArrival o s).freeReads = s.freeReads ∧
    (countArrival o s).pending = s.pending := by
  dsimp only [countArrival]
  repeat' split
  all_goals simp

@[simp] theorem intervalExpiry_frame (s : State) :
    (intervalExpiry s).pins = s.pins ∧ (intervalExpiry s).ftb = s.ftb ∧ (intervalExpiry s).tmon = s.tmon ∧
    (intervalExpiry s).lsb = s.lsb ∧ (intervalExpiry s).lest = s.lest ∧ (intervalExpiry s).slc = s.slc ∧
    (intervalExpiry s).fc = s.fc ∧ (intervalExpiry s).sid = s.sid ∧ (intervalExpiry s).ptab = s.ptab ∧
    (intervalExpiry s).tge = s.tge ∧ (intervalExpiry s).drvp = s.drvp ∧ (intervalExpiry s).csto = s.csto ∧
    (intervalExpiry s).evu = s.evu ∧ (intervalExpiry s).freeReads = s.freeReads ∧
    (intervalExpiry s).pending = s.pending := by
  dsimp only [intervalExpiry]
  repeat' split
  all_goals simp

@[simp] theorem settleTimeout_frame (s : State) :
    (settleTimeout s).pins = s.pins ∧ (settleTimeout s).ftb = s.ftb ∧ (settleTimeout s).tmon = s.tmon ∧
    (settleTimeout s).fc = s.fc ∧ (settleTimeout s).sid = s.sid ∧ (settleTimeout s).ptab = s.ptab ∧
    (settleTimeout s).drvp = s.drvp ∧ (settleTimeout s).csto = s.csto ∧ (settleTimeout s).freeReads = s.freeReads ∧
    (settleTimeout s).pending = s.pending := by
  dsimp only [settleTimeout]
  repeat' split
  all_goals simp

@[simp] theorem malformed_frame (f : Finding) (s : State) :
    (malformed f s).pins = s.pins ∧ (malformed f s).ftb = s.ftb ∧ (malformed f s).tmon = s.tmon ∧
    (malformed f s).lsb = s.lsb ∧ (malformed f s).lest = s.lest ∧ (malformed f s).sseq = s.sseq ∧
    (malformed f s).tge = s.tge ∧ (malformed f s).drvp = s.drvp ∧ (malformed f s).csto = s.csto ∧
    (malformed f s).freeReads = s.freeReads ∧ (malformed f s).pending = s.pending := by
  simp [malformed]

@[simp] theorem replyError_frame (w : Window) (f : ReplyFinding) (s : State) :
    (replyError w f s).pins = s.pins ∧ (replyError w f s).ftb = s.ftb ∧ (replyError w f s).tmon = s.tmon ∧
    (replyError w f s).lsb = s.lsb ∧ (replyError w f s).lest = s.lest ∧ (replyError w f s).sseq = s.sseq ∧
    (replyError w f s).tge = s.tge ∧ (replyError w f s).drvp = s.drvp ∧ (replyError w f s).csto = s.csto ∧
    (replyError w f s).freeReads = s.freeReads ∧ (replyError w f s).pending = s.pending := by
  simp [replyError]

@[simp] theorem startOfFrame_frame (t pulse : Nat) (s : State) :
    (startOfFrame t pulse s).pins = s.pins ∧ (startOfFrame t pulse s).ftb = s.ftb ∧
    (startOfFrame t pulse s).tmon = s.tmon ∧ (startOfFrame t pulse s).lsb = s.lsb ∧
    (startOfFrame t pulse s).lest = s.lest ∧ (startOfFrame t pulse s).sseq = s.sseq ∧
    (startOfFrame t pulse s).tge = s.tge ∧ (startOfFrame t pulse s).drvp = s.drvp ∧
    (startOfFrame t pulse s).csto = s.csto ∧ (startOfFrame t pulse s).freeReads = s.freeReads ∧
    (startOfFrame t pulse s).pending = s.pending := by
  dsimp only [startOfFrame]
  repeat' split
  all_goals simp

@[simp] theorem transmitStart_frame (sof : SofSent) (s : State) :
    (transmitStart sof s).pins = s.pins ∧ (transmitStart sof s).ftb = s.ftb ∧ (transmitStart sof s).tmon = s.tmon ∧
    (transmitStart sof s).lsb = s.lsb ∧ (transmitStart sof s).lest = s.lest ∧ (transmitStart sof s).sseq = s.sseq ∧
    (transmitStart sof s).sid = s.sid ∧ (transmitStart sof s).ptab = s.ptab ∧ (transmitStart sof s).tge = s.tge ∧
    (transmitStart sof s).drvp = s.drvp ∧ (transmitStart sof s).csto = s.csto ∧ (transmitStart sof s).evu = s.evu ∧
    (transmitStart sof s).freeReads = s.freeReads ∧ (transmitStart sof s).pending = s.pending := by
  dsimp only [transmitStart]
  repeat' split
  all_goals simp

@[simp] theorem takeReported_frame (lum : Rgb (BitVec 16)) (flags : Byte) (s : State) :
    (takeReported lum flags s).pins = s.pins ∧ (takeReported lum flags s).ftb = s.ftb ∧
    (takeReported lum flags s).tmon = s.tmon ∧ (takeReported lum flags s).lsb = s.lsb ∧
    (takeReported lum flags s).sseq = s.sseq ∧ (takeReported lum flags s).fc = s.fc ∧
    (takeReported lum flags s).sid = s.sid ∧ (takeReported lum flags s).ptab = s.ptab ∧
    (takeReported lum flags s).tge = s.tge ∧ (takeReported lum flags s).drvp = s.drvp ∧
    (takeReported lum flags s).csto = s.csto ∧ (takeReported lum flags s).evu = s.evu ∧
    (takeReported lum flags s).freeReads = s.freeReads ∧ (takeReported lum flags s).pending = s.pending := by
  dsimp only [takeReported]
  repeat' split
  all_goals simp

@[simp] theorem noticeDone_frame (f : Frame) (s : State) :
    (noticeDone f s).pins = s.pins ∧ (noticeDone f s).ftb = s.ftb ∧ (noticeDone f s).tmon = s.tmon ∧
    (noticeDone f s).lsb = s.lsb ∧ (noticeDone f s).sseq = s.sseq ∧ (noticeDone f s).fc = s.fc ∧
    (noticeDone f s).sid = s.sid ∧ (noticeDone f s).ptab = s.ptab ∧ (noticeDone f s).tge = s.tge ∧
    (noticeDone f s).drvp = s.drvp ∧ (noticeDone f s).csto = s.csto ∧ (noticeDone f s).evu = s.evu ∧
    (noticeDone f s).freeReads = s.freeReads ∧ (noticeDone f s).pending = s.pending := by
  dsimp only [noticeDone]
  repeat' split
  all_goals simp

@[simp] theorem stuckPulse_frame (d : Nat) (s : State) :
    (stuckPulse d s).pins = s.pins ∧ (stuckPulse d s).ftb = s.ftb ∧ (stuckPulse d s).tmon = s.tmon ∧
    (stuckPulse d s).lsb = s.lsb ∧ (stuckPulse d s).lest = s.lest ∧ (stuckPulse d s).sseq = s.sseq ∧
    (stuckPulse d s).tge = s.tge ∧ (stuckPulse d s).drvp = s.drvp ∧ (stuckPulse d s).csto = s.csto ∧
    (stuckPulse d s).freeReads = s.freeReads ∧ (stuckPulse d s).pending = s.pending := by
  dsimp only [stuckPulse]
  repeat' split
  all_goals simp

@[simp] theorem busStuckSet_frame (d : Nat) (s : State) :
    (busStuckSet d s).pins = s.pins ∧ (busStuckSet d s).ftb = s.ftb ∧ (busStuckSet d s).tmon = s.tmon ∧
    (busStuckSet d s).lsb = s.lsb ∧ (busStuckSet d s).lest = s.lest ∧ (busStuckSet d s).sseq = s.sseq ∧
    (busStuckSet d s).tge = s.tge ∧ (busStuckSet d s).drvp = s.drvp ∧ (busStuckSet d s).csto = s.csto ∧
    (busStuckSet d s).freeReads = s.freeReads ∧ (busStuckSet d s).pending = s.pending := by
  dsimp only [busStuckSet]
  repeat' split
  all_goals simp

@[simp] theorem deliverToTable_frame (f : Frame) (s : State) :
    (deliverToTable f s).pins = s.pins ∧ (deliverToTable f s).ftb = s.ftb ∧ (deliverToTable f s).tmon = s.tmon ∧
    (deliverToTable f s).lsb = s.lsb ∧ (deliverToTable f s).lest = s.lest ∧ (deliverToTable f s).sseq = s.sseq ∧
    (deliverToTable f s).fc = s.fc ∧ (deliverToTable f s).sid = s.sid ∧ (deliverToTable f s).tge = s.tge ∧
    (deliverToTable f s).drvp = s.drvp ∧ (deliverToTable f s).csto = s.csto ∧ (deliverToTable f s).evu = s.evu ∧
    (deliverToTable f s).freeReads = s.freeReads ∧ (deliverToTable f s).pending = s.pending := by
  dsimp only [deliverToTable]
  repeat' split
  all_goals simp

@[simp] theorem receiveMain_frame (f : Frame) (s : State) :
    (receiveMain f s).pins = s.pins ∧ (receiveMain f s).ftb = s.ftb ∧ (receiveMain f s).tmon = s.tmon ∧
    (receiveMain f s).lsb = s.lsb ∧ (receiveMain f s).lest = s.lest ∧ (receiveMain f s).sseq = s.sseq ∧
    (receiveMain f s).sid = s.sid ∧ (receiveMain f s).ptab = s.ptab ∧ (receiveMain f s).tge = s.tge ∧
    (receiveMain f s).drvp = s.drvp ∧ (receiveMain f s).csto = s.csto ∧ (receiveMain f s).freeReads = s.freeReads ∧
    (receiveMain f s).pending = s.pending := by
  simp [receiveMain]

@[simp] theorem deliver_frame (f : Frame) (s : State) :
    (deliver f s).pins = s.pins ∧ (deliver f s).ftb = s.ftb ∧ (deliver f s).tmon = s.tmon ∧ (deliver f s).lsb = s.lsb ∧
    (deliver f s).lest = s.lest ∧ (deliver f s).sseq = s.sseq ∧ (deliver f s).fc = s.fc ∧ (deliver f s).tge = s.tge ∧
    (deliver f s).drvp = s.drvp ∧ (deliver f s).csto = s.csto ∧ (deliver f s).freeReads = s.freeReads ∧
    (deliver f s).pending = s.pending := by
  dsimp only [deliver]
  repeat' split
  all_goals simp

@[simp] theorem musterReplyStart_frame (start : Byte) (link : LinkState) (s : State) :
    (musterReplyStart start link s).pins = s.pins ∧ (musterReplyStart start link s).ftb = s.ftb ∧
    (musterReplyStart start link s).tmon = s.tmon ∧ (musterReplyStart start link s).lsb = s.lsb ∧
    (musterReplyStart start link s).lest = s.lest ∧ (musterReplyStart start link s).sseq = s.sseq ∧
    (musterReplyStart start link s).fc = s.fc ∧ (musterReplyStart start link s).sid = s.sid ∧
    (musterReplyStart start link s).ptab = s.ptab ∧ (musterReplyStart start link s).tge = s.tge ∧
    (musterReplyStart start link s).drvp = s.drvp ∧ (musterReplyStart start link s).csto = s.csto ∧
    (musterReplyStart start link s).evu = s.evu ∧ (musterReplyStart start link s).freeReads = s.freeReads ∧
    (musterReplyStart start link s).pending = s.pending := by
  dsimp only [musterReplyStart]
  repeat' split
  all_goals simp

@[simp] theorem stakeAtEob_frame (tgt : Byte) (uid : BitVec 64) (mode : Byte) (link : LinkState) (s : State) :
    (stakeAtEob tgt uid mode link s).pins = s.pins ∧ (stakeAtEob tgt uid mode link s).ftb = s.ftb ∧
    (stakeAtEob tgt uid mode link s).tmon = s.tmon ∧ (stakeAtEob tgt uid mode link s).lsb = s.lsb ∧
    (stakeAtEob tgt uid mode link s).lest = s.lest ∧ (stakeAtEob tgt uid mode link s).sseq = s.sseq ∧
    (stakeAtEob tgt uid mode link s).fc = s.fc ∧ (stakeAtEob tgt uid mode link s).tge = s.tge ∧
    (stakeAtEob tgt uid mode link s).drvp = s.drvp ∧ (stakeAtEob tgt uid mode link s).csto = s.csto ∧
    (stakeAtEob tgt uid mode link s).freeReads = s.freeReads ∧ (stakeAtEob tgt uid mode link s).pending = s.pending := by
  dsimp only [stakeAtEob]
  repeat' split
  all_goals simp

@[simp] theorem giveAnswer_frame (sel : Byte) (s : State) :
    (giveAnswer sel s).pins = s.pins ∧ (giveAnswer sel s).ftb = s.ftb ∧ (giveAnswer sel s).tmon = s.tmon ∧
    (giveAnswer sel s).lsb = s.lsb ∧ (giveAnswer sel s).lest = s.lest ∧ (giveAnswer sel s).sseq = s.sseq ∧
    (giveAnswer sel s).fc = s.fc ∧ (giveAnswer sel s).sid = s.sid ∧ (giveAnswer sel s).ptab = s.ptab ∧
    (giveAnswer sel s).tge = s.tge ∧ (giveAnswer sel s).drvp = s.drvp ∧ (giveAnswer sel s).csto = s.csto ∧
    (giveAnswer sel s).freeReads = s.freeReads ∧ (giveAnswer sel s).pending = s.pending := by
  dsimp only [giveAnswer]
  repeat' split
  all_goals simp

@[simp] theorem askAtEob_frame (tgt sel : Byte) (link : LinkState) (s : State) :
    (askAtEob tgt sel link s).pins = s.pins ∧ (askAtEob tgt sel link s).ftb = s.ftb ∧
    (askAtEob tgt sel link s).tmon = s.tmon ∧ (askAtEob tgt sel link s).lsb = s.lsb ∧
    (askAtEob tgt sel link s).lest = s.lest ∧ (askAtEob tgt sel link s).sseq = s.sseq ∧
    (askAtEob tgt sel link s).fc = s.fc ∧ (askAtEob tgt sel link s).sid = s.sid ∧
    (askAtEob tgt sel link s).ptab = s.ptab ∧ (askAtEob tgt sel link s).tge = s.tge ∧
    (askAtEob tgt sel link s).drvp = s.drvp ∧ (askAtEob tgt sel link s).csto = s.csto ∧
    (askAtEob tgt sel link s).freeReads = s.freeReads ∧ (askAtEob tgt sel link s).pending = s.pending := by
  dsimp only [askAtEob]
  repeat' split
  all_goals simp

@[simp] theorem fixtureAtEob_frame (tgt code : Byte) (args : List Byte) (link : LinkState) (s : State) :
    (fixtureAtEob tgt code args link s).pins = s.pins ∧ (fixtureAtEob tgt code args link s).ftb = s.ftb ∧
    (fixtureAtEob tgt code args link s).tmon = s.tmon ∧ (fixtureAtEob tgt code args link s).lsb = s.lsb ∧
    (fixtureAtEob tgt code args link s).lest = s.lest ∧ (fixtureAtEob tgt code args link s).sseq = s.sseq ∧
    (fixtureAtEob tgt code args link s).fc = s.fc ∧ (fixtureAtEob tgt code args link s).sid = s.sid ∧
    (fixtureAtEob tgt code args link s).ptab = s.ptab ∧ (fixtureAtEob tgt code args link s).tge = s.tge ∧
    (fixtureAtEob tgt code args link s).drvp = s.drvp ∧ (fixtureAtEob tgt code args link s).evu = s.evu ∧
    (fixtureAtEob tgt code args link s).freeReads = s.freeReads ∧
    (fixtureAtEob tgt code args link s).pending = s.pending := by
  dsimp only [fixtureAtEob]
  repeat' split
  all_goals simp

@[simp] theorem deliverLife_frame (v : Byte) (s : State) :
    (deliverLife v s).pins = s.pins ∧ (deliverLife v s).ftb = s.ftb ∧ (deliverLife v s).tmon = s.tmon ∧
    (deliverLife v s).lsb = s.lsb ∧ (deliverLife v s).lest = s.lest ∧ (deliverLife v s).sseq = s.sseq ∧
    (deliverLife v s).fc = s.fc ∧ (deliverLife v s).sid = s.sid ∧ (deliverLife v s).tge = s.tge ∧
    (deliverLife v s).drvp = s.drvp ∧ (deliverLife v s).csto = s.csto ∧ (deliverLife v s).evu = s.evu ∧
    (deliverLife v s).freeReads = s.freeReads ∧ (deliverLife v s).pending = s.pending := by
  dsimp only [deliverLife]
  repeat' split
  all_goals simp

@[simp] theorem blockPassed_frame (s : State) :
    (blockPassed s).pins = s.pins ∧ (blockPassed s).ftb = s.ftb ∧ (blockPassed s).tmon = s.tmon ∧
    (blockPassed s).lsb = s.lsb ∧ (blockPassed s).lest = s.lest ∧ (blockPassed s).sseq = s.sseq ∧
    (blockPassed s).fc = s.fc ∧ (blockPassed s).sid = s.sid ∧ (blockPassed s).ptab = s.ptab ∧
    (blockPassed s).tge = s.tge ∧ (blockPassed s).drvp = s.drvp ∧ (blockPassed s).csto = s.csto ∧
    (blockPassed s).evu = s.evu ∧ (blockPassed s).freeReads = s.freeReads ∧
    (blockPassed s).pending = s.pending := by
  simp [blockPassed]

@[simp] theorem contestByte_frame (v : Byte) (s : State) :
    (contestByte v s).pins = s.pins ∧ (contestByte v s).ftb = s.ftb ∧ (contestByte v s).tmon = s.tmon ∧
    (contestByte v s).lsb = s.lsb ∧ (contestByte v s).lest = s.lest ∧ (contestByte v s).sseq = s.sseq ∧
    (contestByte v s).fc = s.fc ∧ (contestByte v s).sid = s.sid ∧ (contestByte v s).tge = s.tge ∧
    (contestByte v s).drvp = s.drvp ∧ (contestByte v s).csto = s.csto ∧ (contestByte v s).evu = s.evu ∧
    (contestByte v s).freeReads = s.freeReads ∧ (contestByte v s).pending = s.pending := by
  dsimp only [contestByte]
  repeat' split
  all_goals simp

@[simp] theorem musterNext_frame (s : State) :
    (musterNext s).pins = s.pins ∧ (musterNext s).ftb = s.ftb ∧ (musterNext s).tmon = s.tmon ∧
    (musterNext s).lsb = s.lsb ∧ (musterNext s).lest = s.lest ∧ (musterNext s).sseq = s.sseq ∧ (musterNext s).fc = s.fc ∧
    (musterNext s).sid = s.sid ∧ (musterNext s).ptab = s.ptab ∧ (musterNext s).tge = s.tge ∧
    (musterNext s).drvp = s.drvp ∧ (musterNext s).csto = s.csto ∧ (musterNext s).evu = s.evu ∧
    (musterNext s).freeReads = s.freeReads ∧ (musterNext s).pending = s.pending := by
  dsimp only [musterNext]
  repeat' split
  all_goals simp

@[simp] theorem musterByte_frame (v : Byte) (s : State) :
    (musterByte v s).pins = s.pins ∧ (musterByte v s).ftb = s.ftb ∧ (musterByte v s).tmon = s.tmon ∧
    (musterByte v s).lsb = s.lsb ∧ (musterByte v s).lest = s.lest ∧ (musterByte v s).sseq = s.sseq ∧
    (musterByte v s).fc = s.fc ∧ (musterByte v s).sid = s.sid ∧ (musterByte v s).tge = s.tge ∧
    (musterByte v s).drvp = s.drvp ∧ (musterByte v s).csto = s.csto ∧ (musterByte v s).evu = s.evu ∧
    (musterByte v s).freeReads = s.freeReads ∧ (musterByte v s).pending = s.pending := by
  dsimp only [musterByte]
  repeat' split
  all_goals simp

@[simp] theorem answerReceived_frame (block : List Byte) (s : State) :
    (answerReceived block s).pins = s.pins ∧ (answerReceived block s).ftb = s.ftb ∧
    (answerReceived block s).tmon = s.tmon ∧ (answerReceived block s).lsb = s.lsb ∧
    (answerReceived block s).lest = s.lest ∧ (answerReceived block s).sseq = s.sseq ∧
    (answerReceived block s).tge = s.tge ∧ (answerReceived block s).drvp = s.drvp ∧
    (answerReceived block s).csto = s.csto ∧ (answerReceived block s).freeReads = s.freeReads ∧
    (answerReceived block s).pending = s.pending := by
  dsimp only [answerReceived]
  repeat' split
  all_goals simp

@[simp] theorem fixtureStatusByte_frame (s : State) :
    (fixtureStatusByte s).pins = s.pins ∧ (fixtureStatusByte s).ftb = s.ftb ∧ (fixtureStatusByte s).tmon = s.tmon ∧
    (fixtureStatusByte s).lsb = s.lsb ∧ (fixtureStatusByte s).lest = s.lest ∧ (fixtureStatusByte s).sseq = s.sseq ∧
    (fixtureStatusByte s).fc = s.fc ∧ (fixtureStatusByte s).sid = s.sid ∧ (fixtureStatusByte s).ptab = s.ptab ∧
    (fixtureStatusByte s).tge = s.tge ∧ (fixtureStatusByte s).drvp = s.drvp ∧ (fixtureStatusByte s).csto = s.csto ∧
    (fixtureStatusByte s).evu = s.evu ∧ (fixtureStatusByte s).freeReads = s.freeReads ∧
    (fixtureStatusByte s).pending = s.pending := by
  dsimp only [fixtureStatusByte]
  repeat' split
  all_goals simp

@[simp] theorem replyBlockError_frame (e : ReplyError) (s : State) :
    (replyBlockError e s).pins = s.pins ∧ (replyBlockError e s).ftb = s.ftb ∧ (replyBlockError e s).tmon = s.tmon ∧
    (replyBlockError e s).lsb = s.lsb ∧ (replyBlockError e s).lest = s.lest ∧ (replyBlockError e s).sseq = s.sseq ∧
    (replyBlockError e s).tge = s.tge ∧ (replyBlockError e s).drvp = s.drvp ∧ (replyBlockError e s).csto = s.csto ∧
    (replyBlockError e s).freeReads = s.freeReads ∧ (replyBlockError e s).pending = s.pending := by
  dsimp only [replyBlockError]
  repeat' split
  all_goals simp

@[simp] theorem replyDone_frame (x : Sending) (s : State) :
    (replyDone x s).pins = s.pins ∧ (replyDone x s).ftb = s.ftb ∧ (replyDone x s).tmon = s.tmon ∧
    (replyDone x s).lsb = s.lsb ∧ (replyDone x s).lest = s.lest ∧ (replyDone x s).sseq = s.sseq ∧
    (replyDone x s).fc = s.fc ∧ (replyDone x s).ptab = s.ptab ∧ (replyDone x s).tge = s.tge ∧
    (replyDone x s).drvp = s.drvp ∧ (replyDone x s).csto = s.csto ∧ (replyDone x s).freeReads = s.freeReads ∧
    (replyDone x s).pending = s.pending := by
  dsimp only [replyDone]
  repeat' split
  all_goals simp

@[simp] theorem ownReply_frame (s : State) :
    (ownReply s).pins = s.pins ∧ (ownReply s).ftb = s.ftb ∧ (ownReply s).tmon = s.tmon ∧ (ownReply s).lsb = s.lsb ∧
    (ownReply s).lest = s.lest ∧ (ownReply s).sseq = s.sseq ∧ (ownReply s).fc = s.fc ∧ (ownReply s).ptab = s.ptab ∧
    (ownReply s).tge = s.tge ∧ (ownReply s).drvp = s.drvp ∧ (ownReply s).csto = s.csto ∧
    (ownReply s).freeReads = s.freeReads ∧ (ownReply s).pending = s.pending := by
  dsimp only [ownReply]
  repeat' split
  all_goals simp

@[simp] theorem judgeOwnStake_frame (tgt : Addr) (c : Bool) (s : State) :
    (judgeOwnStake tgt c s).pins = s.pins ∧ (judgeOwnStake tgt c s).ftb = s.ftb ∧ (judgeOwnStake tgt c s).tmon = s.tmon ∧
    (judgeOwnStake tgt c s).lsb = s.lsb ∧ (judgeOwnStake tgt c s).lest = s.lest ∧ (judgeOwnStake tgt c s).sseq = s.sseq ∧
    (judgeOwnStake tgt c s).fc = s.fc ∧ (judgeOwnStake tgt c s).tge = s.tge ∧ (judgeOwnStake tgt c s).drvp = s.drvp ∧
    (judgeOwnStake tgt c s).csto = s.csto ∧ (judgeOwnStake tgt c s).freeReads = s.freeReads ∧
    (judgeOwnStake tgt c s).pending = s.pending := by
  dsimp only [judgeOwnStake]
  repeat' split
  all_goals simp

@[simp] theorem judgeOtherStake_frame (tgt : Addr) (c : Bool) (s : State) :
    (judgeOtherStake tgt c s).pins = s.pins ∧ (judgeOtherStake tgt c s).ftb = s.ftb ∧
    (judgeOtherStake tgt c s).tmon = s.tmon ∧ (judgeOtherStake tgt c s).lsb = s.lsb ∧
    (judgeOtherStake tgt c s).lest = s.lest ∧ (judgeOtherStake tgt c s).sseq = s.sseq ∧
    (judgeOtherStake tgt c s).fc = s.fc ∧ (judgeOtherStake tgt c s).tge = s.tge ∧
    (judgeOtherStake tgt c s).drvp = s.drvp ∧ (judgeOtherStake tgt c s).csto = s.csto ∧
    (judgeOtherStake tgt c s).freeReads = s.freeReads ∧ (judgeOtherStake tgt c s).pending = s.pending := by
  dsimp only [judgeOtherStake]
  repeat' split
  all_goals simp

@[simp] theorem emptySlot_frame (tgt : Addr) (s : State) :
    (emptySlot tgt s).pins = s.pins ∧ (emptySlot tgt s).ftb = s.ftb ∧ (emptySlot tgt s).tmon = s.tmon ∧
    (emptySlot tgt s).lsb = s.lsb ∧ (emptySlot tgt s).lest = s.lest ∧ (emptySlot tgt s).sseq = s.sseq ∧
    (emptySlot tgt s).fc = s.fc ∧ (emptySlot tgt s).tge = s.tge ∧ (emptySlot tgt s).drvp = s.drvp ∧
    (emptySlot tgt s).csto = s.csto ∧ (emptySlot tgt s).freeReads = s.freeReads ∧
    (emptySlot tgt s).pending = s.pending := by
  dsimp only [emptySlot]
  repeat' split
  all_goals simp

@[simp] theorem judgeStake_frame (w : Window) (s : State) :
    (judgeStake w s).pins = s.pins ∧ (judgeStake w s).ftb = s.ftb ∧ (judgeStake w s).tmon = s.tmon ∧
    (judgeStake w s).lsb = s.lsb ∧ (judgeStake w s).lest = s.lest ∧ (judgeStake w s).sseq = s.sseq ∧
    (judgeStake w s).fc = s.fc ∧ (judgeStake w s).tge = s.tge ∧ (judgeStake w s).drvp = s.drvp ∧
    (judgeStake w s).csto = s.csto ∧ (judgeStake w s).freeReads = s.freeReads ∧ (judgeStake w s).pending = s.pending := by
  dsimp only [judgeStake]
  repeat' split
  all_goals simp

@[simp] theorem finishAsk_frame (w : Window) (s : State) :
    (finishAsk w s).pins = s.pins ∧ (finishAsk w s).ftb = s.ftb ∧ (finishAsk w s).tmon = s.tmon ∧
    (finishAsk w s).lsb = s.lsb ∧ (finishAsk w s).lest = s.lest ∧ (finishAsk w s).sseq = s.sseq ∧
    (finishAsk w s).fc = s.fc ∧ (finishAsk w s).sid = s.sid ∧ (finishAsk w s).tge = s.tge ∧
    (finishAsk w s).drvp = s.drvp ∧ (finishAsk w s).csto = s.csto ∧ (finishAsk w s).evu = s.evu ∧
    (finishAsk w s).freeReads = s.freeReads ∧ (finishAsk w s).pending = s.pending := by
  dsimp only [finishAsk]
  repeat' split
  all_goals simp

@[simp] theorem musterStep_frame (w : Window) (start : Byte) (s : State) :
    (musterStep w start s).pins = s.pins ∧ (musterStep w start s).ftb = s.ftb ∧ (musterStep w start s).tmon = s.tmon ∧
    (musterStep w start s).lsb = s.lsb ∧ (musterStep w start s).lest = s.lest ∧ (musterStep w start s).sseq = s.sseq ∧
    (musterStep w start s).fc = s.fc ∧ (musterStep w start s).sid = s.sid ∧ (musterStep w start s).ptab = s.ptab ∧
    (musterStep w start s).tge = s.tge ∧ (musterStep w start s).drvp = s.drvp ∧ (musterStep w start s).csto = s.csto ∧
    (musterStep w start s).evu = s.evu ∧ (musterStep w start s).freeReads = s.freeReads ∧
    (musterStep w start s).pending = s.pending := by
  dsimp only [musterStep]
  repeat' split
  all_goals simp

@[simp] theorem finishWindow_frame (w : Window) (s : State) :
    (finishWindow w s).pins = s.pins ∧ (finishWindow w s).ftb = s.ftb ∧ (finishWindow w s).tmon = s.tmon ∧
    (finishWindow w s).lsb = s.lsb ∧ (finishWindow w s).lest = s.lest ∧ (finishWindow w s).sseq = s.sseq ∧
    (finishWindow w s).fc = s.fc ∧ (finishWindow w s).tge = s.tge ∧ (finishWindow w s).drvp = s.drvp ∧
    (finishWindow w s).csto = s.csto ∧ (finishWindow w s).freeReads = s.freeReads ∧
    (finishWindow w s).pending = s.pending := by
  dsimp only [finishWindow]
  repeat' split
  all_goals simp

@[simp] theorem closeFrame_frame (w : Window) (s : State) :
    (closeFrame w s).pins = s.pins ∧ (closeFrame w s).ftb = s.ftb ∧ (closeFrame w s).tmon = s.tmon ∧
    (closeFrame w s).lsb = s.lsb ∧ (closeFrame w s).sseq = s.sseq ∧ (closeFrame w s).fc = s.fc ∧
    (closeFrame w s).drvp = s.drvp ∧ (closeFrame w s).csto = s.csto ∧ (closeFrame w s).freeReads = s.freeReads ∧
    (closeFrame w s).pending = s.pending := by
  dsimp only [closeFrame]
  repeat' split
  all_goals simp

@[simp] theorem frameEof_frame (s : State) :
    (frameEof s).pins = s.pins ∧ (frameEof s).ftb = s.ftb ∧ (frameEof s).tmon = s.tmon ∧ (frameEof s).lsb = s.lsb ∧
    (frameEof s).sseq = s.sseq ∧ (frameEof s).fc = s.fc ∧ (frameEof s).drvp = s.drvp ∧ (frameEof s).csto = s.csto ∧
    (frameEof s).freeReads = s.freeReads ∧ (frameEof s).pending = s.pending := by
  dsimp only [frameEof]
  repeat' split
  all_goals simp

@[simp] theorem busStuckClear_frame (s : State) :
    (busStuckClear s).pins = s.pins ∧ (busStuckClear s).ftb = s.ftb ∧ (busStuckClear s).tmon = s.tmon ∧
    (busStuckClear s).lsb = s.lsb ∧ (busStuckClear s).sseq = s.sseq ∧ (busStuckClear s).drvp = s.drvp ∧
    (busStuckClear s).csto = s.csto ∧ (busStuckClear s).freeReads = s.freeReads ∧
    (busStuckClear s).pending = s.pending := by
  dsimp only [busStuckClear]
  repeat' split
  all_goals simp

@[simp] theorem listenStart_frame (s : State) :
    (listenStart s).pins = s.pins ∧ (listenStart s).ftb = s.ftb ∧ (listenStart s).tmon = s.tmon ∧
    (listenStart s).lsb = s.lsb ∧ (listenStart s).lest = s.lest ∧ (listenStart s).sseq = s.sseq ∧
    (listenStart s).fc = s.fc ∧ (listenStart s).tge = s.tge ∧ (listenStart s).drvp = s.drvp ∧
    (listenStart s).csto = s.csto ∧ (listenStart s).freeReads = s.freeReads ∧ (listenStart s).pending = s.pending := by
  simp [listenStart]

@[simp] theorem gainsStart_frame (p : Params) (s : State) :
    (gainsStart p s).pins = s.pins ∧ (gainsStart p s).ftb = s.ftb ∧ (gainsStart p s).tmon = s.tmon ∧
    (gainsStart p s).lsb = s.lsb ∧ (gainsStart p s).lest = s.lest ∧ (gainsStart p s).sseq = s.sseq ∧
    (gainsStart p s).slc = s.slc ∧ (gainsStart p s).fc = s.fc ∧ (gainsStart p s).sid = s.sid ∧
    (gainsStart p s).ptab = s.ptab ∧ (gainsStart p s).csto = s.csto ∧ (gainsStart p s).evu = s.evu ∧
    (gainsStart p s).freeReads = s.freeReads ∧ (gainsStart p s).pending = s.pending := by
  simp [gainsStart]

@[simp] theorem eventsStart_frame (p : Params) (s : State) :
    (eventsStart p s).pins = s.pins ∧ (eventsStart p s).ftb = s.ftb ∧ (eventsStart p s).tmon = s.tmon ∧
    (eventsStart p s).lsb = s.lsb ∧ (eventsStart p s).lest = s.lest ∧ (eventsStart p s).sseq = s.sseq ∧
    (eventsStart p s).slc = s.slc ∧ (eventsStart p s).fc = s.fc ∧ (eventsStart p s).sid = s.sid ∧
    (eventsStart p s).ptab = s.ptab ∧ (eventsStart p s).tge = s.tge ∧ (eventsStart p s).drvp = s.drvp ∧
    (eventsStart p s).csto = s.csto ∧ (eventsStart p s).freeReads = s.freeReads ∧
    (eventsStart p s).pending = s.pending := by
  simp [eventsStart]

@[simp] theorem endOfLoading_frame (p : Params) (s : State) :
    (endOfLoading p s).pins = s.pins ∧ (endOfLoading p s).ftb = s.ftb ∧ (endOfLoading p s).lsb = s.lsb ∧
    (endOfLoading p s).fc = s.fc ∧ (endOfLoading p s).freeReads = s.freeReads ∧
    (endOfLoading p s).pending = s.pending := by
  simp [endOfLoading]

/-! ### Frames with a handling of their own: a block that the handling leaves is left by the whole -/

@[simp] theorem frameReceived_pins (f : Frame) (h : LinkState → State → State) (s : State)
    (hh : ∀ k x, (h k x).pins = x.pins) : (frameReceived f h s).pins = s.pins := by
  dsimp only [frameReceived]
  repeat' split
  all_goals simp [hh]

@[simp] theorem ownComplete_pins (k : Kind) (h : Frame → State → State) (s : State)
    (hh : ∀ f x, (h f x).pins = x.pins) : (ownComplete k h s).pins = s.pins := by
  dsimp only [ownComplete]
  repeat' split
  all_goals simp [hh]

@[simp] theorem frameReceived_ftb (f : Frame) (h : LinkState → State → State) (s : State)
    (hh : ∀ k x, (h k x).ftb = x.ftb) : (frameReceived f h s).ftb = s.ftb := by
  dsimp only [frameReceived]
  repeat' split
  all_goals simp [hh]

@[simp] theorem ownComplete_ftb (k : Kind) (h : Frame → State → State) (s : State)
    (hh : ∀ f x, (h f x).ftb = x.ftb) : (ownComplete k h s).ftb = s.ftb := by
  dsimp only [ownComplete]
  repeat' split
  all_goals simp [hh]

@[simp] theorem frameReceived_tmon (f : Frame) (h : LinkState → State → State) (s : State)
    (hh : ∀ k x, (h k x).tmon = x.tmon) : (frameReceived f h s).tmon = s.tmon := by
  dsimp only [frameReceived]
  repeat' split
  all_goals simp [hh]

@[simp] theorem ownComplete_tmon (k : Kind) (h : Frame → State → State) (s : State)
    (hh : ∀ f x, (h f x).tmon = x.tmon) : (ownComplete k h s).tmon = s.tmon := by
  dsimp only [ownComplete]
  repeat' split
  all_goals simp [hh]

@[simp] theorem frameReceived_lsb (f : Frame) (h : LinkState → State → State) (s : State)
    (hh : ∀ k x, (h k x).lsb = x.lsb) : (frameReceived f h s).lsb = s.lsb := by
  dsimp only [frameReceived]
  repeat' split
  all_goals simp [hh]

@[simp] theorem ownComplete_lsb (k : Kind) (h : Frame → State → State) (s : State)
    (hh : ∀ f x, (h f x).lsb = x.lsb) : (ownComplete k h s).lsb = s.lsb := by
  dsimp only [ownComplete]
  repeat' split
  all_goals simp [hh]

@[simp] theorem frameReceived_lest (f : Frame) (h : LinkState → State → State) (s : State)
    (hh : ∀ k x, (h k x).lest = x.lest) : (frameReceived f h s).lest = s.lest := by
  dsimp only [frameReceived]
  repeat' split
  all_goals simp [hh]

@[simp] theorem ownComplete_lest (k : Kind) (h : Frame → State → State) (s : State)
    (hh : ∀ f x, (h f x).lest = x.lest) : (ownComplete k h s).lest = s.lest := by
  dsimp only [ownComplete]
  repeat' split
  all_goals simp [hh]

@[simp] theorem frameReceived_sseq (f : Frame) (h : LinkState → State → State) (s : State)
    (hh : ∀ k x, (h k x).sseq = x.sseq) : (frameReceived f h s).sseq = s.sseq := by
  dsimp only [frameReceived]
  repeat' split
  all_goals simp [hh]

@[simp] theorem ownComplete_sseq (k : Kind) (h : Frame → State → State) (s : State)
    (hh : ∀ f x, (h f x).sseq = x.sseq) : (ownComplete k h s).sseq = s.sseq := by
  dsimp only [ownComplete]
  repeat' split
  all_goals simp [hh]

@[simp] theorem frameReceived_tge (f : Frame) (h : LinkState → State → State) (s : State)
    (hh : ∀ k x, (h k x).tge = x.tge) : (frameReceived f h s).tge = s.tge := by
  dsimp only [frameReceived]
  repeat' split
  all_goals simp [hh]

@[simp] theorem ownComplete_tge (k : Kind) (h : Frame → State → State) (s : State)
    (hh : ∀ f x, (h f x).tge = x.tge) : (ownComplete k h s).tge = s.tge := by
  dsimp only [ownComplete]
  repeat' split
  all_goals simp [hh]

@[simp] theorem frameReceived_drvp (f : Frame) (h : LinkState → State → State) (s : State)
    (hh : ∀ k x, (h k x).drvp = x.drvp) : (frameReceived f h s).drvp = s.drvp := by
  dsimp only [frameReceived]
  repeat' split
  all_goals simp [hh]

@[simp] theorem ownComplete_drvp (k : Kind) (h : Frame → State → State) (s : State)
    (hh : ∀ f x, (h f x).drvp = x.drvp) : (ownComplete k h s).drvp = s.drvp := by
  dsimp only [ownComplete]
  repeat' split
  all_goals simp [hh]

@[simp] theorem frameReceived_csto (f : Frame) (h : LinkState → State → State) (s : State)
    (hh : ∀ k x, (h k x).csto = x.csto) : (frameReceived f h s).csto = s.csto := by
  dsimp only [frameReceived]
  repeat' split
  all_goals simp [hh]

@[simp] theorem ownComplete_csto (k : Kind) (h : Frame → State → State) (s : State)
    (hh : ∀ f x, (h f x).csto = x.csto) : (ownComplete k h s).csto = s.csto := by
  dsimp only [ownComplete]
  repeat' split
  all_goals simp [hh]

@[simp] theorem frameReceived_freeReads (f : Frame) (h : LinkState → State → State) (s : State)
    (hh : ∀ k x, (h k x).freeReads = x.freeReads) : (frameReceived f h s).freeReads = s.freeReads := by
  dsimp only [frameReceived]
  repeat' split
  all_goals simp [hh]

@[simp] theorem ownComplete_freeReads (k : Kind) (h : Frame → State → State) (s : State)
    (hh : ∀ f x, (h f x).freeReads = x.freeReads) : (ownComplete k h s).freeReads = s.freeReads := by
  dsimp only [ownComplete]
  repeat' split
  all_goals simp [hh]

@[simp] theorem frameReceived_pending (f : Frame) (h : LinkState → State → State) (s : State)
    (hh : ∀ k x, (h k x).pending = x.pending) : (frameReceived f h s).pending = s.pending := by
  dsimp only [frameReceived]
  repeat' split
  all_goals simp [hh]

@[simp] theorem ownComplete_pending (k : Kind) (h : Frame → State → State) (s : State)
    (hh : ∀ f x, (h f x).pending = x.pending) : (ownComplete k h s).pending = s.pending := by
  dsimp only [ownComplete]
  repeat' split
  all_goals simp [hh]

end Sys2Proof.Machine
end

