-- ==== Sys2Proof/Laws/Reception.lean ====
section
/-! SUPPORT. The receiver's assembly (R57): the bits of whole bytes give the bytes, and the bits of a main part are found valid
exactly when kind, payload length, source and target are allowed (R59). -/

namespace Sys2Proof.Machine

/-! ### Bits to bytes -/

@[simp] theorem shiftIn_zero (x : Byte) (b : Bool) : (shiftIn x b)[0] = b := by cases b <;> simp [shiftIn]

theorem shiftIn_succ (x : Byte) (b : Bool) (i : Nat) (h : i + 1 < 8) : (shiftIn x b)[i + 1] = x[i] := by
  cases b <;> simp [shiftIn, BitVec.getElem_one]

/-- The eight bits of a byte shifted in give the byte, whatever stood there before. -/
theorem foldl_shiftIn (x b : Byte) : (byteBits b).foldl shiftIn x = b := by
  apply BitVec.eq_of_getElem_eq
  intro i hi
  change (shiftIn (shiftIn (shiftIn (shiftIn (shiftIn (shiftIn (shiftIn (shiftIn x _) _) _) _) _) _) _) _)[i] = _
  interval_cases i <;> simp [shiftIn_succ, BitVec.getMsbD]

/-- The eight bits of a byte, received from a byte boundary on, are that byte received. -/
theorem Reception.bits_byte (r : Reception) (b : Byte) (h : r.bitPos = 0) : (byteBits b).foldl Reception.bit r = r.byte b := by
  have e := foldl_shiftIn r.shift b
  simp only [byteBits, List.range, List.range.loop, List.map, List.foldl] at e ⊢
  simp [Reception.bit, h, e, Reception.byte]

@[simp] theorem Reception.byte_bitPos (r : Reception) (b : Byte) : (r.byte b).bitPos = 0 := rfl
@[simp] theorem Reception.byte_bytes (r : Reception) (b : Byte) : (r.byte b).bytes = r.bytes ++ [b] := rfl

/-- The bits of whole bytes are the bytes received one by one. -/
theorem Reception.foldl_lineBits (bytes : List Byte) (r : Reception) (h : r.bitPos = 0) :
    (lineBits bytes).foldl Reception.bit r = bytes.foldl Reception.byte r := by
  induction bytes generalizing r with
  | nil => rfl
  | cons b rest ih =>
    simp only [lineBits, List.map_cons, List.flatten_cons, List.foldl_append, List.foldl_cons, Reception.bits_byte r b h]
    exact ih _ rfl

theorem Reception.ofBits_lineBits (bytes : List Byte) :
    Reception.ofBits (lineBits bytes) = bytes.foldl Reception.byte .fresh := Reception.foldl_lineBits bytes _ rfl

/-! ### A main part -/

/-- Bytes after the header and before the CRC byte: each enters the register. -/
theorem Reception.foldl_covered (rest : List Byte) (r : Reception) (hp : r.bitPos = 0) (hs : r.shift = 0)
    (hb : r.bytes ≠ []) (he : ∀ n, r.expected = some n → r.bytes.length + rest.length < n) :
    rest.foldl Reception.byte r = { r with bytes := r.bytes ++ rest, crc := rest.foldl crc8Byte r.crc } := by
  induction rest generalizing r with
  | nil => simp
  | cons b rest ih =>
    have hn : r.expected ≠ some (r.bytes.length + 1) := by
      intro h
      have := he _ h
      simp only [List.length_cons] at this
      omega
    have hr : r.byte b = { r with bytes := r.bytes ++ [b], crc := crc8Byte r.crc b } := by
      simp [Reception.byte, hn, hb, hp, hs]
    have hl : ∀ n, r.expected = some n → (r.bytes ++ [b]).length + rest.length < n := by
      intro n h
      have := he n h
      simp only [List.length_cons, List.length_append, List.length_nil] at this ⊢
      omega
    rw [List.foldl_cons, hr,
      ih { r with bytes := r.bytes ++ [b], crc := crc8Byte r.crc b } hp hs (List.append_ne_nil_of_right_ne_nil _ (by simp)) hl]
    simp

/-- The bytes received never shrink, and the first stays the first. -/
theorem Reception.foldl_bytes (rest : List Byte) (r : Reception) :
    (rest.foldl Reception.byte r).bytes = r.bytes ++ rest := by
  induction rest generalizing r with
  | nil => simp
  | cons b rest ih => simp [ih]

theorem Reception.foldl_expected (rest : List Byte) (r : Reception) (hb : r.bytes ≠ []) :
    (rest.foldl Reception.byte r).expected = r.expected := by
  induction rest generalizing r with
  | nil => rfl
  | cons b rest ih => rw [List.foldl_cons, ih _ (by simp)]; simp [Reception.byte, hb]

theorem Reception.foldl_bitPos (rest : List Byte) (r : Reception) (h : r.bitPos = 0) :
    (rest.foldl Reception.byte r).bitPos = 0 := by
  induction rest generalizing r with
  | nil => exact h
  | cons b rest ih => exact ih _ rfl

/-- The first byte received is the header: register and expected length follow it. -/
theorem Reception.byte_fresh (h : Byte) :
    Reception.fresh.byte h = { bytes := [h], shift := 0, bitPos := 0, crc := crc8Byte 0xFF h, expected := expectedOf h } := by
  simp [Reception.byte, Reception.fresh]

/-- The header byte of a body with an allowed payload length, read back (R57). -/
theorem Body.header_toNat {b : Body} (h : b.kind.lengthOk b.payload.length = true) :
    b.header.toNat = b.kind.code * 16 + b.payload.length ∧ b.payload.length < 16 := by
  have hl : b.payload.length < 16 := by
    cases b <;> simp_all [Body.kind, Kind.lengthOk, Body.payload]; omega
  refine ⟨?_, hl⟩
  have hc : b.kind.code ≤ 5 := by cases b <;> simp [Body.kind, Kind.code]
  simp only [Body.header, BitVec.toNat_ofNat]
  omega

theorem kindOf?_code (k : Kind) : kindOf? k.code = some k := by cases k <;> rfl

/-- A header that names a kind with an allowed length is valid, and gives the main part's length. -/
theorem Body.header_ok {b : Body} (h : b.kind.lengthOk b.payload.length = true) :
    headerOk b.header = true ∧ kindOf? (b.header.toNat / 16) = some b.kind ∧
      expectedOf b.header = some (4 + b.payload.length) := by
  obtain ⟨e, hl⟩ := Body.header_toNat h
  have hd : b.header.toNat / 16 = b.kind.code := by omega
  have hm : b.header.toNat % 16 = b.payload.length := by omega
  have hk : headerOk b.header = true := by simp [headerOk, hd, hm, kindOf?_code, h]
  exact ⟨hk, by rw [hd, kindOf?_code], by simp [expectedOf, hk, hm]⟩

/-- The reception of a main part whose kind and length are allowed (R57). -/
theorem Frame.received_eq {f : Frame} (h : f.body.kind.lengthOk f.body.payload.length = true) :
    f.received = { bytes := f.bytes, shift := 0, bitPos := 0, crc := crc8 f.covered, expected := some f.bytes.length } := by
  obtain ⟨-, -, he⟩ := Body.header_ok h
  have hc : f.covered.length = 3 + f.body.payload.length := by simp [Frame.covered]; omega
  rw [Frame.received, Reception.ofBits_lineBits, Frame.bytes, List.foldl_append]
  have hcov : f.covered.foldl Reception.byte .fresh =
      { bytes := f.covered, shift := 0, bitPos := 0, crc := crc8 f.covered, expected := some (4 + f.body.payload.length) } := by
    rw [Frame.covered, List.foldl_cons, Reception.byte_fresh, he,
      Reception.foldl_covered _ _ rfl rfl (by simp) (by intro n hn; cases hn; simp; omega)]
    simp [crc8]
  rw [hcov]
  simp only [List.foldl_cons, List.foldl_nil, Reception.byte, List.length_append, List.length_singleton, hc]
  have hne : f.covered.isEmpty = false := by simp [Frame.covered]
  simp [hne, show 4 + f.body.payload.length = 3 + f.body.payload.length + 1 by omega]

/-- The receiver finds the bits of a main part valid exactly when its kind, payload length, source and target are allowed (R57,
R59). -/
theorem Frame.received_valid (f : Frame) : f.received.valid = !f.malformed := by
  by_cases h : f.body.kind.lengthOk f.body.payload.length = true
  · obtain ⟨hh, hk, -⟩ := Body.header_ok h
    have hb : f.bytes = f.body.header :: f.src :: f.tgt :: (f.body.payload ++ [crc8 f.covered]) := rfl
    have hlast : f.bytes.getLast? = some (crc8 f.covered) := by simp [Frame.bytes]
    rw [Frame.received_eq h]
    simp only [Reception.valid, Reception.complete, Reception.testsPass, Frame.malformed, h, hlast]
    simp [hb, hk, hh]
  · simp only [Frame.malformed, h, Bool.false_and, Bool.not_false]
    have he : f.received.expected = expectedOf f.body.header := by
      rw [Frame.received, Reception.ofBits_lineBits, Frame.bytes, Frame.covered, List.cons_append, List.foldl_cons,
        Reception.foldl_expected _ _ (by simp), Reception.byte_fresh]
    have hb : f.received.bytes.length = 4 + f.body.payload.length := by
      rw [Frame.received, Reception.ofBits_lineBits, Reception.foldl_bytes]
      simp [Reception.fresh, Frame.bytes, Frame.covered]
      omega
    have hc : f.received.complete = false := by
      by_contra hc
      simp only [Reception.complete, he, hb, expectedOf, Bool.not_eq_false, Bool.and_eq_true, decide_eq_true_eq] at hc
      split at hc
      case isFalse => exact absurd hc.1 (by simp)
      case isTrue hh =>
        have hl : f.body.header.toNat % 16 = f.body.payload.length := by simpa using hc.1
        have hk : f.body.kind.code ≤ 5 := by cases f.body <;> simp [Body.kind, Kind.code]
        have hn : f.body.header.toNat = f.body.kind.code * 16 + f.body.payload.length := by
          simp only [Body.header, BitVec.toNat_ofNat] at hl ⊢
          omega
        have hd : f.body.header.toNat / 16 = f.body.kind.code := by omega
        rw [headerOk, hd, kindOf?_code, hl] at hh
        exact h hh
    simp [Reception.valid, hc]

end Sys2Proof.Machine
end

