-- ==== Sys2Proof/Laws/Ops.lean ====
section
/-! SUPPORT. For each shared operation one lemma, or a few, that say what it does: later proofs cite these and do not unfold it. -/

namespace Sys2Proof

/-! ### Addresses and triples -/

@[simp] theorem addrByte_toNat (a : Addr) : (addrByte a).toNat = a.val := by
  simp only [addrByte, BitVec.toNat_ofNat]
  exact Nat.mod_eq_of_lt (by have := a.isLt; omega)

@[simp] theorem addrOf?_addrByte (a : Addr) : addrOf? (addrByte a) = some a := by
  have h : (addrByte a).toNat < 48 := by simp
  unfold addrOf?
  rw [dif_pos h]
  exact congrArg some (Fin.ext (by simp))

theorem addrOf?_none {x : Byte} (h : 48 ≤ x.toNat) : addrOf? x = none := by
  unfold addrOf?
  rw [dif_neg (by omega)]

theorem addrOf?_some {x : Byte} {a : Addr} (h : addrOf? x = some a) : x = addrByte a := by
  unfold addrOf? at h
  split at h
  · cases h
    apply BitVec.eq_of_toNat_eq
    simp
  · cases h

theorem addrByte_inj {a b : Addr} : addrByte a = addrByte b ↔ a = b :=
  ⟨fun h => Fin.ext (by simpa using congrArg BitVec.toNat h), fun h => h ▸ rfl⟩

@[simp] theorem Rgb.get_set_self {α : Type} (v : Rgb α) (c : Channel) (x : α) : (v.set c x).get c = x := by cases c <;> rfl

theorem Rgb.get_set_ne {α : Type} (v : Rgb α) {c d : Channel} (x : α) (h : d ≠ c) : (v.set c x).get d = v.get d := by
  cases c <;> cases d <;> first | rfl | exact absurd rfl h

@[simp] theorem Rgb.get_map {α β : Type} (f : α → β) (v : Rgb α) (c : Channel) : (v.map f).get c = f (v.get c) := by
  cases c <;> rfl

@[simp] theorem Rgb.get_map₂ {α β γ : Type} (f : α → β → γ) (v : Rgb α) (w : Rgb β) (c : Channel) :
    (Rgb.map₂ f v w).get c = f (v.get c) (w.get c) := by cases c <;> rfl

@[simp] theorem Rgb.get_all {α : Type} (x : α) (c : Channel) : (Rgb.all x).get c = x := by cases c <;> rfl

namespace Machine

/-! ### The gate and the receiver's entry -/

theorem whenLive_of_live {s u : State} (h : s.live) : whenLive s u = .next u := by
  unfold State.live at h
  simp [whenLive, h]

theorem whenLive_of_held {s u : State} (h : s.pins.resetHeld = true) : whenLive s u = .next s := by simp [whenLive, h]

/-- A well-formed main part, received: delivered, handled, and a change of link state handed on last. -/
theorem frameReceived_eq {f : Frame} {h : LinkState → State → State} {s : State} (hr : s.receiving)
    (hf : f.malformed = false) (hl : s.csto.loaded.isSome) :
    frameReceived f h s = linkHandOff s.fc.link (h s.fc.link (deliver f (receiveMain f s))) := by
  obtain ⟨-, hp, hs⟩ := hr
  simp [frameReceived, Frame.received_valid, hp, hs, hf, hl]

/-- Before loading ends a main part moves the counts and opens its window alone (R87). -/
theorem frameReceived_loading {f : Frame} {h : LinkState → State → State} {s : State} (hr : s.receiving)
    (hf : f.malformed = false) (hl : s.csto.loaded = none) :
    frameReceived f h s = linkHandOff s.fc.link (receiveMain f s) := by
  obtain ⟨-, hp, hs⟩ := hr
  simp [frameReceived, Frame.received_valid, deliver, hp, hs, hf, hl]

/-- A main part that R59 forbids is malformed. -/
theorem frameReceived_malformed {f : Frame} {h : LinkState → State → State} {s : State} (hr : s.receiving)
    (hf : f.malformed = true) : frameReceived f h s = malformed (.byteEnd (lineBits f.bytes)) s := by
  obtain ⟨-, hp, hs⟩ := hr
  simp [frameReceived, Frame.received_valid, hp, hs, hf]

/-- An event that leaves the link state as it found it hands on events alone. -/
theorem linkHandOff_same {old : LinkState} {s : State} (h : s.fc.link = old) : linkHandOff old s = handEvents 0 s := by
  simp [linkHandOff, h]

/-- The change of fault confinement's state that `confine` makes is the one it is given. -/
theorem confine_fc (f : Fc → Fc) (s : State) : (confine f s).fc = f s.fc := by simp [confine]

/-! ### The peer table -/

@[simp] theorem mapVec_get {α β : Type} (f : α → β) (v : Vector α 48) (a : Addr) : (mapVec f v).get a = f (v.get a) := by
  change (mapVec f v)[a.val] = f v[a.val]
  simp [mapVec]

@[simp] theorem Ptab.update_get_self (t : Ptab) (a : Addr) (f : PeerSlot → PeerSlot) :
    (t.update a f).slots.get a = f (t.slots.get a) := by
  change (t.slots.set a.val _ a.isLt)[a.val] = _
  simp

theorem Ptab.update_get_ne (t : Ptab) {a b : Addr} (f : PeerSlot → PeerSlot) (h : b ≠ a) :
    (t.update a f).slots.get b = t.slots.get b := by
  have : a.val ≠ b.val := fun e => h (Fin.ext e.symm)
  change (t.slots.set a.val _ a.isLt)[b.val] = t.slots[b.val]
  simp [this]

@[simp] theorem Ptab.updateAll_get (t : Ptab) (f : PeerSlot → PeerSlot) (a : Addr) :
    (t.updateAll f).slots.get a = f (t.slots.get a) := by simp [Ptab.updateAll]

@[simp] theorem Ptab.contributions_get (t : Ptab) (a : Addr) : t.contributions.get a = (t.slots.get a).contribution := by
  simp [Ptab.contributions]

/-- The ASK slot's renewal leaves every peer slot. -/
@[simp] theorem askUpdate_slots (s : State) : (askUpdate s).ptab.slots = s.ptab.slots := by
  simp only [askUpdate]
  repeat' split
  all_goals rfl

/-- Acting on one slot replaces that slot by a function of itself, and no other. -/
theorem actOnSlot_slots (a : Addr) (f : PeerSlot → PeerSlot) (s : State) :
    (actOnSlot a f s).ptab.slots.get a = f (s.ptab.slots.get a) ∧
      ∀ b : Addr, b ≠ a → (actOnSlot a f s).ptab.slots.get b = s.ptab.slots.get b := by
  simp only [actOnSlot, askUpdate_slots, State.setPtab_ptab]
  exact ⟨Ptab.update_get_self _ _ _, fun b hb => Ptab.update_get_ne _ _ hb⟩

/-! ### The candidate choice -/

/-- A choice finds an EMPTY slot among those it examines, and every slot before it in order is not EMPTY (R93). -/
theorem Ptab.firstFree_some {t : Ptab} {start n : Addr} {all : Bool} (h : t.firstFree start all = some n) :
    t.slots.get n = .empty ∧
      ∃ before after, searchOrder start all = before ++ n :: after ∧ ∀ a ∈ before, t.slots.get a ≠ .empty := by
  obtain ⟨hn, before, after, e, hb⟩ := List.find?_eq_some_iff_append.mp h
  exact ⟨by simpa using hn, before, after, e, fun a ha => by simpa using hb a ha⟩

/-- A choice that finds none has every slot it examines not EMPTY. -/
theorem Ptab.firstFree_none {t : Ptab} {start : Addr} {all : Bool} (h : t.firstFree start all = none) :
    ∀ a ∈ searchOrder start all, t.slots.get a ≠ .empty := fun a ha => by
  simpa using List.find?_eq_none.mp h a ha

/-! ### Slots emptied by aging, on their way to station identity -/

/-- Outside UNADDRESSED identity takes a hand-off of emptied slots without effect (R119). -/
theorem handOverEmptied_addressed {w : Bool} {s : State} (h : s.sid.st ≠ .unaddressed) : handOverEmptied w s = s := by
  simp [handOverEmptied, slotEmptied, h]

/-- In UNADDRESSED it starts a claim, or, where it waits and none was on its way, it is on its way (R105, R114). -/
theorem handOverEmptied_unaddressed {w : Bool} {s : State} (h : s.sid.st = .unaddressed) :
    handOverEmptied w s =
      if w = true ∧ s.sid.emptied = false then s.setSid { s.sid with emptied := true } else claimFromSeed s := by
  cases w <;> cases he : s.sid.emptied <;> simp [handOverEmptied, slotEmptied, h, he]

/-- A hand-off on its way starts a claim in UNADDRESSED; where none is, nothing happens. -/
theorem takeHandOff_eq (s : State) :
    takeHandOff s = if s.sid.emptied = true ∧ s.sid.st = .unaddressed then claimFromSeed s else s := by
  cases he : s.sid.emptied <;> simp [takeHandOff, slotEmptied, he]

/-! ### The engine -/

/-- A recompute leaves the inputs and the applied gains. -/
theorem Tge.recompute_inputs (p : Params) (t : Tge) :
    (t.recompute p).own = t.own ∧ (t.recompute p).peers = t.peers ∧ (t.recompute p).crit = t.crit ∧
      (t.recompute p).applied = t.applied := by
  unfold Tge.recompute
  split <;> simp_all

/-- A second recompute from the same inputs changes nothing. -/
theorem Tge.recompute_recompute (p : Params) (t : Tge) : (t.recompute p).recompute p = t.recompute p := by
  cases h : t.own <;> simp [Tge.recompute, Tge.members, h]

/-- A slew leaves a settled engine settled: its results do not depend on the applied gains. -/
theorem Tge.slew_recompute (p : Params) (t : Tge) (h : t.recompute p = t) : (t.slew p).recompute p = t.slew p := by
  unfold Tge.slew
  split
  · exact h
  · generalize Rgb.map₂ _ _ _ = g
    cases ho : t.own with
    | none => simp [Tge.recompute]
    | some own =>
      have := congrArg (fun u : Tge => { u with applied := g }) h
      simpa [Tge.recompute, Tge.members, ho] using this

/-- After a notification the engine holds the contributions. -/
@[simp] theorem Tge.notified_peers (p : Params) (peers : Vector (Option Entry) 48) (t : Tge) :
    (t.notified p peers).peers = peers := by
  unfold Tge.notified
  split
  · next h => exact (congrArg Tge.peers h).symm
  · exact (Tge.recompute_inputs p _).2.1

/-- After a notification an engine that was settled is settled. -/
theorem Tge.notified_settled {p : Params} {peers : Vector (Option Entry) 48} {t : Tge} (h : t.recompute p = t) :
    (t.notified p peers).recompute p = t.notified p peers := by
  unfold Tge.notified
  split
  · exact h
  · exact Tge.recompute_recompute p _

/-! ### Outbound slots -/

/-- A fill of a slot whose frame is not on the line makes its content pending. -/
theorem OutSlot.fill_offLine {α : Type} (sl : OutSlot α) (r : Bool) (x : α) :
    (sl.fill false r x).content = some x := by
  simp only [OutSlot.fill]
  split <;> rfl

/-- A fill of the empty slot. -/
theorem OutSlot.fill_empty {α : Type} (o r : Bool) (x : α) :
    (OutSlot.empty : OutSlot α).fill o r x = ⟨some x, false, none⟩ := rfl

/-- A withdrawal of a frame that is not on the line empties the slot. -/
theorem OutSlot.withdraw_offLine {α : Type} (sl : OutSlot α) : (sl.withdraw false).content = none := by
  simp only [OutSlot.withdraw]
  split
  · assumption
  · rfl

/-- A withdrawal of a pending frame that is on the line marks it and drops a held content. -/
theorem OutSlot.withdraw_onLine {α : Type} {sl : OutSlot α} {x : α} (h : sl.content = some x) :
    sl.withdraw true = ⟨some x, true, none⟩ := by
  simp [OutSlot.withdraw, h]

/-- An attempt that ends without completing leaves a frame that is not withdrawn as it is. -/
theorem OutSlot.attemptEnd_kept {α : Type} {sl : OutSlot α} (h : sl.withdrawn = false) : sl.attemptEnd = sl := by
  simp [OutSlot.attemptEnd, h]

/-! ### The station's own symbols -/

/-- The own bits before symbol `k + 1` of a main part are the first `k` bits of its bytes. -/
theorem Sending.bitsBefore_main (f : Frame) (k : Nat) :
    (Sending.main f).bitsBefore (k + 1) = (lineBits f.bytes).take k := by
  have h (bits : List Bool) : (bits.map bitSymbol).filterMap Sent.bit? = bits := by
    rw [List.filterMap_map]
    conv_rhs => rw [← List.filterMap_some (l := bits)]
    congr 1
    funext b
    cases b <;> rfl
  simp only [Sending.bitsBefore, Sending.symbols, List.take_succ_cons]
  rw [List.filterMap_cons_none rfl, blockSymbols, ← List.map_take, h]

/-- A transmission that ends without completing releases the driver, and no frame is on the line. -/
theorem Slc.stop_line (l : Slc) (m : OwnMark) :
    (l.stop m).driver = .released ∧ (l.stop m).tx = none ∧ (l.stop m).txPos = 0 ∧ (l.stop m).mark = m := ⟨rfl, rfl, rfl, rfl⟩

/-- What a transmission that ends without completing does to the four slots (R72, R73). -/
theorem Slc.stop_slots {l : Slc} {x : Sending} (m : OwnMark) (h : l.tx = some x) :
    SlotEnded .stake x l.stake (l.stop m).stake ∧ SlotEnded .ask x l.ask (l.stop m).ask ∧
      SlotEnded .notice x l.notice (l.stop m).notice ∧ SlotEnded .muster x l.muster (l.stop m).muster := by
  cases x with
  | main f =>
    cases hb : f.body <;>
      simp [SlotEnded, Sending.carries, Slc.stop, Slc.release, Slc.attemptEnd, OutSlot.attemptEnd, h, hb, Body.kind]
  | _ => simp [SlotEnded, Sending.carries, Slc.stop, Slc.release, Slc.attemptEnd, h]

/-- A read-back pulse moves the recessive time and the frame in reception alone, and of a reply the recessive time alone. -/
theorem Slc.takeOwnBits_fields (l : Slc) (pos pulse : Nat) :
    l.takeOwnBits pos pulse = { l with recessive := 0, rx := (l.takeOwnBits pos pulse).rx } ∧
      ((∀ f, l.tx ≠ some (.main f)) → l.takeOwnBits pos pulse = { l with recessive := 0 }) := by
  refine ⟨rfl, fun h => ?_⟩
  unfold Slc.takeOwnBits
  split
  · next f hf => exact absurd hf (h f)
  · rfl

/-- A block in place is not passed over. -/
theorem Slc.passOver_inPlace {l : Slc} {w : Window} (n : Nat) (h : l.inPlace = some w) : l.passOver n = l := by
  simp [Slc.passOver, h]

/-- A block passed over moves the recessive time and the mark of an ended attempt alone. -/
theorem Slc.passOver_fields (l : Slc) (n : Nat) :
    l.passOver n = { l with recessive := (l.passOver n).recessive, mark := (l.passOver n).mark } := by
  unfold Slc.passOver
  split <;> rfl

/-- Line time at the station's own transmission moves the driver, the symbol's number and the frame in reception alone. -/
theorem Slc.partPasses_fields (l : Slc) :
    l.partPasses = { l with driver := l.partPasses.driver, txPos := l.partPasses.txPos, rx := l.partPasses.rx } := by
  unfold Slc.partPasses
  split
  · rfl
  · rfl
  · unfold Slc.recessiveEnds
    split <;> rfl

/-! ### Flags and events -/

@[simp] theorem Evu.take_raw (e : Evu) (now pulses : EventSet) : (e.take now pulses).raw = now := rfl
@[simp] theorem Evu.take_mask (e : Evu) (now pulses : EventSet) : (e.take now pulses).mask = e.mask := rfl
@[simp] theorem Evu.take_latched (e : Evu) (now pulses : EventSet) :
    (e.take now pulses).latched = e.latched ||| (now &&& ~~~e.raw ||| pulses) := rfl
@[simp] theorem Evu.take_marks (e : Evu) (now pulses : EventSet) :
    (e.take now pulses).marks = e.marks ||| (now &&& ~~~e.raw ||| pulses) := rfl
@[simp] theorem Evu.clearRequest_latched (e : Evu) (captured : EventSet) :
    (e.clearRequest captured).latched = e.latched &&& ~~~(captured &&& ~~~e.marks) := rfl
@[simp] theorem handEvents_evu (p : EventSet) (s : State) : (handEvents p s).evu = s.evu.take s.conditions p := rfl

/-- The conditions do not read the event unit: after the event unit has taken them they are the same. -/
@[simp] theorem handEvents_conditions (p : EventSet) (s : State) : (handEvents p s).conditions = s.conditions := rfl

/-- After the hand-off of events the raw set shows the conditions (R173). -/
theorem handEvents_raw (p : EventSet) (s : State) : (handEvents p s).evu.raw = (handEvents p s).conditions := rfl

/-- An event unit that was judged drives the line exactly while a latched and masked entry stands. -/
theorem Evu.judge_line (e : Evu) : e.judge.faultLine = (e.latched &&& e.mask != 0) := rfl

/-- An entry that rises is latched and marked (R174). -/
theorem Evu.take_arises {e : Evu} {now pulses : EventSet} {k : Nat} (h0 : e.raw.getLsbD k = false) (h1 : now.getLsbD k = true) :
    (e.take now pulses).latched.getLsbD k = true ∧ (e.take now pulses).marks.getLsbD k = true := by
  have hk : k < 16 := BitVec.lt_of_getLsbD h1
  rw [BitVec.getLsbD_eq_getElem hk] at h0
  simp [h0, h1, hk]

/-- A pulse that arrives is latched and marked (R174). -/
theorem Evu.take_pulses {e : Evu} {now pulses : EventSet} {k : Nat} (h : pulses.getLsbD k = true) :
    (e.take now pulses).latched.getLsbD k = true ∧ (e.take now pulses).marks.getLsbD k = true := by simp [h]

/-- The event unit clears no latched entry and no mark where it takes conditions (R174). -/
theorem Evu.take_keeps (e : Evu) (now pulses : EventSet) (k : Nat) :
    (e.latched.getLsbD k = true → (e.take now pulses).latched.getLsbD k = true) ∧
      (e.marks.getLsbD k = true → (e.take now pulses).marks.getLsbD k = true) :=
  ⟨fun h => by simp [h], fun h => by simp [h]⟩

/-- What `settle` leaves of the estimator, the engine's own entry and the signalling before loading ends, or without estimates:
the own flags alone are taken. -/
theorem settle_unloaded {s : State} (h : s.csto.loaded = none ∨ s.lest.l = none) :
    (settle s).lest = { s.lest with ownFlags := s.flags } ∧ (settle s).slc = s.slc := by
  unfold settle
  split
  next hp hl => rcases h with h | h <;> simp_all
  next => exact ⟨rfl, rfl⟩

/-- What `settle` does to them from then on (R24, R27, R30): the own entry is triple and flags, and the signalling takes an early
request where that entry is another and the test holds. -/
theorem settle_loaded {s : State} {p : Params} {l : Rgb Nat} (hp : s.csto.loaded = some p) (hl : s.lest.l = some l) :
    (∃ flags, (settle s).lest = { s.lest with ownFlags := flags }) ∧
      (settle s).tge.own = some ⟨l, (settle s).lest.ownFlags⟩ ∧
      (settle s).slc =
        if (settle s).tge.own ≠ s.tge.own ∧ (settle s).lest.significant = true then earlyRequest s.sid.st s.slc else s.slc := by
  have h : settle s = handEvents 0 ((((s.takeFlags).setTge (s.takeFlags.engine p l)).returnFlags l).evaluate s.tge.own) := by
    simp only [settle, hp, hl]
  rw [h]
  unfold State.evaluate
  simp only [Bool.and_eq_true, bne_iff_ne]
  split
  next h => exact ⟨⟨_, rfl⟩, rfl, (if_pos h).symm⟩
  next h => exact ⟨⟨_, rfl⟩, rfl, (if_neg h).symm⟩

/-- The own-flags set after `takeFlags` shows the owners' flags. -/
@[simp] theorem takeFlags_ownFlags (s : State) : s.takeFlags.lest.ownFlags = s.flags := rfl

end Machine

end Sys2Proof
end

