-- ==== Sys2Proof/Laws/Store.lean ====
section
/-! SUPPORT. The store's array: its canonical form is kept by every operation, a read after a write, and programming clears no
bit. -/

namespace Sys2Proof.Machine

/-- A canonical form from a higher bound is one from a lower bound. -/
theorem Memory.wfFrom_mono {low low' : Nat} {m : Memory} (h : Memory.wfFrom low m = true) (hl : low' ≤ low) :
    Memory.wfFrom low' m = true := by
  cases m with
  | nil => rfl
  | cons c rest => obtain ⟨k, b⟩ := c; simp [Memory.wfFrom] at h ⊢; exact ⟨⟨⟨by omega, h.1.1.2⟩, h.1.2⟩, h.2⟩

/-- Below the bound of a canonical form every byte reads as erased. -/
theorem Memory.read_below {low a : Nat} {m : Memory} (h : Memory.wfFrom low m = true) (ha : a < low) : m.read a = 0 := by
  induction m generalizing low with
  | nil => rfl
  | cons c rest ih =>
    obtain ⟨k, b⟩ := c
    simp only [Memory.wfFrom, Bool.and_eq_true, decide_eq_true_eq] at h
    have hk : k ≠ a := by omega
    rw [Memory.read, if_neg hk]
    exact ih h.2 (by omega)

/-- A write keeps the canonical form. -/
theorem Memory.wfFrom_write {low a : Nat} {b : Byte} {m : Memory} (h : Memory.wfFrom low m = true) (hl : low ≤ a)
    (ha : a < 128) : Memory.wfFrom low (m.write a b) = true := by
  induction m generalizing low with
  | nil => by_cases hb : b = 0#8 <;> simp [Memory.write, Memory.wfFrom, hb, hl, ha]
  | cons c rest ih =>
    obtain ⟨k, v⟩ := c
    have h' := h
    simp only [Memory.wfFrom, Bool.and_eq_true, decide_eq_true_eq] at h
    obtain ⟨⟨⟨hk, hk'⟩, hv⟩, hr⟩ := h
    by_cases h1 : a < k
    · by_cases hb : b = 0#8
      · simpa [Memory.write, h1, hb] using h'
      · simp [Memory.write, h1, hb, Memory.wfFrom, hl, ha, hk', hr, Nat.succ_le_of_lt h1]; simpa using hv
    · by_cases h2 : a = k
      · subst h2
        by_cases hb : b = 0#8
        · simpa [Memory.write, hb] using Memory.wfFrom_mono hr (by omega)
        · simp [Memory.write, hb, Memory.wfFrom, hl, ha, hr]
      · simp only [Memory.write, h1, h2, if_false, Memory.wfFrom]
        simp only [hk, hk', hv, decide_true, Bool.true_and]
        exact ih hr (by omega)

/-- A read after a write: the byte written, and every other byte as before. -/
theorem Memory.read_write {low a a' : Nat} {b : Byte} {m : Memory} (h : Memory.wfFrom low m = true) :
    (m.write a b).read a' = if a' = a then b else m.read a' := by
  induction m generalizing low with
  | nil =>
    by_cases hb : b = 0#8 <;> by_cases e : a' = a <;> simp [Memory.write, Memory.read, hb, e]
    intro x; exact absurd x.symm e
  | cons c rest ih =>
    obtain ⟨k, v⟩ := c
    simp only [Memory.wfFrom, Bool.and_eq_true, decide_eq_true_eq] at h
    obtain ⟨⟨⟨hk, hk'⟩, hv⟩, hr⟩ := h
    by_cases h1 : a < k
    · by_cases hb : b = 0#8
      · by_cases e : a' = a
        · subst e
          have := Memory.read_below hr (show a' < k + 1 by omega)
          simp [Memory.write, h1, hb, Memory.read, this]; omega
        · simp [Memory.write, h1, hb, e]
      · by_cases e : a' = a
        · simp [Memory.write, h1, hb, Memory.read, e]
        · have e' : a ≠ a' := fun x => e x.symm
          simp [Memory.write, h1, hb, Memory.read, e, e']
    · by_cases h2 : a = k
      · subst h2
        by_cases e : a' = a
        · subst e
          by_cases hb : b = 0#8
          · have := Memory.read_below hr (show a' < a' + 1 by omega)
            simp [Memory.write, hb, this]
          · simp [Memory.write, hb, Memory.read]
        · have e' : a ≠ a' := fun x => e x.symm
          by_cases hb : b = 0#8 <;> simp [Memory.write, hb, Memory.read, e, e']
      · simp only [Memory.write, h1, h2, if_false, Memory.read]
        by_cases e : k = a'
        · subst e
          have : ¬ k = a := fun x => h2 x.symm
          simp [this]
        · simp only [e, if_false]
          exact ih hr

/-- Programming keeps the canonical form. -/
theorem Memory.wf_program {m : Memory} {a : Nat} {bits : Byte} (h : m.wf = true) (ha : a < 128) :
    (m.program a bits).wf = true := Memory.wfFrom_write h (Nat.zero_le a) ha

/-- A byte after programming: its old value OR the bits programmed; every other byte as before (R159). -/
theorem Memory.read_program {m : Memory} {a a' : Nat} {bits : Byte} (h : m.wf = true) :
    (m.program a bits).read a' = if a' = a then m.read a ||| bits else m.read a' := Memory.read_write h

/-- Programming clears no bit (R159). -/
theorem Memory.program_keeps {m : Memory} {a a' : Nat} {bits : Byte} (h : m.wf = true) :
    (m.program a bits).read a' &&& m.read a' = m.read a' := by
  rw [Memory.read_program h]
  by_cases e : a' = a
  · subst e
    rw [if_pos rfl]
    ext i
    simp
    tauto
  · simp [e]

/-- The array at reset is in canonical form. -/
theorem reset_array_wf : State.reset.csto.array.wf = true := rfl

end Sys2Proof.Machine
end

