-- ==== Sys2Proof/Tests/Slice0.lean ====
section
/-! SUPPORT. Tests: ill-formed terms are refused; at most two one-step tests per command with the spec's own figures; for each
statement with hypotheses, a state and operands that meet them. -/

namespace Sys2Proof.Tests

-- One theorem at a time: so many kernel evaluations side by side ask for more threads than a checked run may have.
set_option Elab.async false

open Machine

/-! ### Helper states -/

/-- The state after a command. -/
def next (c : Instr) (s : State) : State :=
  match exec c s with
  | .next t => t
  | .fault _ => s
  | .refused _ => s

/-- Tile A's red channel (WORKED FIGURES of file 02): L_ref 12000, S_ref 20000, and its curve. -/
def chA : CharChannel :=
  { lRef := 12000, sRef := 20000, curve := [36045, 35226, 34406, 32768, 31130, 29491, 27853, 26214, 24576] }

/-- The default settings with tile A's channel in all three. -/
def pA : Params := { defaultParams (Rgb.all chA) false with setDefault := false }

/-- UID of tile S (file 06); its seed is 6. -/
def uidS : BitVec 64 := 0x001277550A31E2B6

/-- A live tile whose loading has ended, at T_f 320 with TFAULT and SETTLING clear, in identity state `st` with own address
`own`, the receiver in phase `ph`. -/
def tile (st : IdState) (own : Option Addr) (ph : Phase) : State :=
  { State.reset with
    pins := { resetHeld := false, swin := false }
    ftb := { lastEdge := some 0, syncTimer := some 40000, nosync := false }
    tmon := { Tmon.reset with tfault := false, pollTimer := some 100000 }
    lest := { f := some (Rgb.all 32768), a := Rgb.all 32768, l := some (Rgb.all 12000), ownFlags := 0, lRep := none,
              flagsRep := none }
    sseq := { Sseq.reset with settling := false, heldTfault := false, interval := some 0 }
    slc := { Slc.reset with phase := ph }
    fc := { Fc.reset with silenceTimer := some 500000 }
    sid := { Sid.reset uidS with st := st, own := own }
    ptab := { Ptab.reset with heldId := st,
                              slots := mapVec (fun a => if own = some a then .self else .empty) (Vector.ofFn id) }
    csto := { Csto.reset [] with fixtureEnable := true, loaded := some pA }
    evu := { Evu.reset with raw := 0, mask := 0xFFFF } }

/-- The tile in RUN at address 21. -/
def run21 (ph : Phase) : State := tile .run (some 21) ph

/-- With one peer slot set. -/
def withSlot (a : Addr) (x : PeerSlot) (s : State) : State := { s with ptab := s.ptab.update a fun _ => x }

/-- With something being sent. -/
def sending (x : Sending) (s : State) : State := { s with slc := s.slc.start x }

/-- A window just opened. -/
def freshWindow (f : Frame) (own : Bool) : Window :=
  { frame := f, own := own, seen := 0, running := true, first := .nothing, answer := none, musterCount := 0,
    lastMuster := none }

/-- With a window open. -/
def inWindow (w : Window) (s : State) : State := { s with slc := { s.slc with phase := .window, window := some w } }

/-- The own NOTICE of `run21`. -/
def noticeSent : Sending := .main ⟨21, 62, .notice (Rgb.all 12000) 0⟩

/-- `run21` with a NOTICE pending. -/
def noticeDue (ph : Phase) : State :=
  { run21 ph with slc := { (run21 ph).slc with notice := ⟨some (), false, none⟩ } }

/-- The tile in the window of a frame with body `b`, of its own or not, with `n` blocks seen. -/
def winOf (b : Body) (own : Bool) (n : Nat) : State :=
  inWindow { freshWindow ⟨9, 47, b⟩ own with seen := n } (run21 .window)

/-! ### Ill-formed terms are refused -/

theorem wf_refuses_loss_of_a_one : Instr.wellFormed (.arbitrationLoss 3 1000) = false := by decide
theorem wf_refuses_bit_error_not_short : Instr.wellFormed (.bitError 3 9000) = false := by decide
theorem wf_refuses_symbol_error_not_long : Instr.wellFormed (.sendSymbolError 3 1500) = false := by decide
theorem wf_refuses_valid_header_finding :
    Instr.wellFormed (.malformedFrame (.byteEnd (lineBits [0x47]))) = false := by decide +kernel
theorem wf_refuses_equal_crc_finding :
    Instr.wellFormed (.malformedFrame (.byteEnd (lineBits [0x31, 5, 12, 0, 0x52]))) = false := by decide +kernel
theorem wf_refuses_eof_after_the_crc :
    Instr.wellFormed (.malformedFrame (.eof (lineBits [0x31, 5, 12, 0, 0x52]))) = false := by decide +kernel
theorem wf_refuses_own_sof_in_its_band : Instr.wellFormed (.malformedFrame (.ownSof 11000)) = false := by decide
theorem wf_refuses_notice_from_63 : Instr.wellFormed (.noticeReceived 63 (Rgb.all 8192) 0) = false := by decide
theorem wf_refuses_muster_from_48 : Instr.wellFormed (.musterReceived 48 0) = false := by decide
theorem wf_refuses_stake_for_48 : Instr.wellFormed (.stakeReceived 63 48 0 0) = false := by decide
theorem wf_refuses_ask_of_all : Instr.wellFormed (.capability 5 62) = false := by decide
theorem wf_refuses_known_selector : Instr.wellFormed (.unknownSelector 5 12 0x8F) = false := by decide
theorem wf_refuses_eleven_payload_bytes : Instr.wellFormed (.arm 5 12 (List.replicate 10 0)) = false := by decide
theorem wf_refuses_fixture_from_63 : Instr.wellFormed (.burn 63 12 [0, 1]) = false := by decide
theorem wf_refuses_known_code : Instr.wellFormed (.unknownCommand 5 12 4 []) = false := by decide
theorem wf_refuses_empty_answer : Instr.wellFormed (.answerBlockReceived []) = false := by decide
theorem wf_refuses_seventeen_answer_bytes : Instr.wellFormed (.answerBlockReceived (List.replicate 17 0)) = false := by decide
theorem wf_refuses_whole_byte_finding : Instr.wellFormed (.replyBlockError ⟨1, .midByte 8⟩) = false := by decide
theorem wf_refuses_block_at_position_17 : Instr.wellFormed (.replyBlockError ⟨17, .symbol 2000⟩) = false := by decide
theorem wf_refuses_detach_at_four_bit_times : Instr.wellFormed (.detach 0 16) = false := by decide
theorem wf_refuses_stuck_at_one_ms : Instr.wellFormed (.busStuckSet 1000) = false := by decide
theorem wf_takes_stake_from_63 : Instr.wellFormed (.stakeReceived 63 47 0 0) = true := by decide

/-! ### Operations, against the spec's figures -/

/-- File 04, THE CRC OF AN ASK. -/
theorem test_crc8_of_ask : (⟨5, 12, .ask 0⟩ : Frame).bytes = [0x31, 0x05, 0x0C, 0x00, 0x52] := by decide +kernel
/-- File 04, CRC EXAMPLE: the register after each byte, and the whole main part found valid. -/
theorem test_reception_of_ask :
    [1, 2, 3, 4].map (fun n => (Reception.ofBits (lineBits ([0x31, 0x05, 0x0C, 0x00].take n))).crc) =
      [0x64, 0x20, 0xC4, 0x52] ∧ (Reception.ofBits (lineBits [0x31, 0x05, 0x0C, 0x00, 0x52])).valid = true := by
  decide +kernel
/-- File 06: the first bytes of S's STAKE. -/
theorem test_stake_bytes : ((⟨63, 6, .stake uidS 0⟩ : Frame).bytes).take 7 = [0x19, 0x3F, 0x06, 0x00, 0x12, 0x77, 0x55] := by
  decide +kernel
theorem test_seed_of_s : seedOf uidS = 6 := by decide
theorem test_seed_of_u : seedOf 0x001277C099140036 = 6 := by decide
/-- File 02, ESTIMATE ACROSS TEMPERATURE. -/
theorem test_thermal_factors :
    [-400, 320, 480, 600, 880, 1600].map (thermalFactor chA.curve) = [36045, 32768, 31130, 29901, 27034, 24576] := by
  decide +kernel
theorem test_estimates :
    [36045, 32768, 31130, 29901, 27034, 24576].map (fun f => estimate 12000 f 31457) =
      [12671, 11519, 10944, 10511, 9504, 8639] := by decide +kernel
/-- File 02, LIMIT INPUTS TO THE AGING UPDATE. -/
theorem test_aging_limits :
    agingStep 31986 (agingRatio 5000 20000 29901) = 28086 ∧ agingStep 31986 (agingRatio 65534 20000 29901) = 32693 := by
  decide +kernel
/-- File 08, TARGET WITH ONE OUTLIER. -/
theorem test_target_with_one_outlier :
    medianOf 10511 [10511, 10890, 10320, 10702, 7100, 11050] = 10511 ∧
      targetOf 240 179 10511 [10511, 10890, 10320, 10702, 7100, 11050] = 9675 := by decide +kernel
theorem test_desired_gain : desiredGain pA false false 9675 10511 = 3770 := by decide
/-- File 13: from 3771 the gain takes 3770; under CRIT it falls by 32 (A TILE IN SUN). -/
theorem test_slew : slewGain 4 false 3770 3771 = 3770 ∧ slewGain 4 true 2048 4096 = 4064 := by decide
theorem test_gain_bits : gainBits 3840 = [false, true, true, true, true, false, false, false, false, false, false, false, false] := by
  decide +kernel

/-! ### One step of each command -/

/-- R49, R50: the own SOF's dominant part is over; then the first header bit is driven, and its dominant part ends. -/
theorem test_lineTime :
    let s := next (.transmitStart ⟨0, 10000⟩) (noticeDue .ready)
    let t := s.slc.partPasses
    s.slc.driver = .released ∧ t.driver = .driving ∧ t.txPos = 1 ∧ t.partPasses.driver = .released ∧
      t.partPasses.rx.map Reception.bitPos = some 1 := by decide +kernel

theorem test_reset : (next .reset (run21 .ready)).tmon.tf = 320 ∧ (next .reset (run21 .ready)).sid.own = none := by
  decide +kernel
theorem test_resetRelease : (next (.resetRelease 0 true) State.reset).ftb.syncTimer = some 40000 := by decide +kernel
/-- File 02, STATE AFTER RESET: an erased part is UNCAL at 8192, with SETTLING clear; its gains are 16 × 240. -/
theorem test_endOfLoading :
    let t := next .endOfLoading (next (.resetRelease 0 true) State.reset)
    t.lest.l = some (Rgb.all 8192) ∧ t.lest.ownFlags = 0x0C ∧ t.tge.applied = Rgb.all 3840 := by decide +kernel
/-- File 01, SYNC LOSS AND RETURN: the glitch at 1.20 ms, and the edge at 85 ms. -/
theorem test_fsyncEdge :
    (next (.fsyncEdge 1200) (run21 .ready)).ftb = (run21 .ready).ftb ∧
      (next (.fsyncEdge 85000) (run21 .ready)).ftb.syncTimer = some 125000 := by decide +kernel
theorem test_substituteTick :
    (next .substituteTick (run21 .ready)).ftb = { lastEdge := some 0, syncTimer := some 60000, nosync := true } := by
  decide +kernel
theorem test_pollTimerExpiry : (next .pollTimerExpiry (run21 .ready)).lsb.inFlight = some .temperature := by decide +kernel
/-- File 01, FILTER AND FAULT SEQUENCE, reads 9 and 13. -/
theorem test_temperatureRead_filter :
    let s (tf : Int) : State := { run21 .ready with
      tmon := { (run21 .ready).tmon with tf := tf }, lsb := { Lsb.reset with inFlight := some .temperature } }
    (next (.temperatureReadCompletion (some 420)) (s 362)).tmon.tf = 369 ∧
      (next (.temperatureReadCompletion (some 300)) (s 380)).tmon.tf = 370 := by decide +kernel
theorem test_temperatureRead_failure :
    let s : State := { run21 .ready with lsb := { Lsb.reset with inFlight := some .temperature } }
    (next (.temperatureReadCompletion (some 2210)) s).tmon.failRun = 1 := by decide +kernel
/-- A tile whose round is due. -/
def due (c : Channel) : State := { run21 .ready with sseq := { (run21 .ready).sseq with st := .due, chan := c, interval := none } }
theorem test_senseWindowOpen :
    (next .senseWindowOpen (due .r)).sseq.st = .wait ∧ (next .senseWindowOpen (due .r)).sseq.drive = some .r := by
  decide +kernel
theorem test_senseWindowClose :
    let t := next .senseWindowClose (next .senseWindowOpen (due .g))
    t.sseq.late = true ∧ t.sseq.fails = ⟨0, 1, 0⟩ ∧ t.sseq.st = .due := by decide +kernel
/-- File 02, AGING UPDATE: count 18700 at T_f 600. -/
theorem test_countArrival :
    let s : State := { due .r with
      lest := { (due .r).lest with f := some (Rgb.all 29901), a := Rgb.all 31457, l := some (Rgb.all 10511) } }
    let t := next (.countArrival (some 18700)) (next .senseWindowOpen s)
    t.lest.a.r = 31986 ∧ t.lest.l = some ⟨10688, 10511, 10511⟩ ∧ t.sseq.chan = .g := by decide +kernel
theorem test_intervalTimerExpiry :
    let s (n : Nat) : State := { run21 .ready with sseq := { (run21 .ready).sseq with interval := some n } }
    (next .intervalTimerExpiry (s 3584)).sseq.st = .due ∧ (next .intervalTimerExpiry (s 3583)).sseq.st = .idle := by
  decide +kernel
theorem test_settleTimeout :
    let s : State := { due .r with sseq := { (due .r).sseq with settling := true, settleCount := some 14336 } }
    (next .settleTimeout s).sseq.senseFault = true ∧ (next .settleTimeout s).sseq.settling = false := by decide +kernel
theorem test_receiverReady : (next .receiverReady (run21 .hunt)).slc.phase = .ready := by decide +kernel
/-- File 06: in CLAIMING only the STAKE is sent. -/
theorem test_transmitStart :
    let s := tile .claiming none .ready
    let s : State := { s with slc := { s.slc with stake := ⟨some ⟨6, .fresh, uidS⟩, false, none⟩,
                                                  notice := ⟨some (), false, none⟩ } }
    (next (.transmitStart ⟨0, 9000⟩) s).slc.tx = some (.main ⟨63, 6, .stake uidS 0⟩) ∧
      (next (.transmitStart ⟨0, 9000⟩) s).slc.phase = .main := by decide +kernel
/-- R51, R52, R55: an own SOF below 9 µs starts no frame, and the silence timer is not restarted. -/
theorem test_transmitStart_short :
    let t := next (.transmitStart ⟨7000, 8999⟩) (noticeDue .ready)
    t.slc.phase = .ready ∧ t.fc.silenceTimer = some 500000 ∧ (next (.bitError 0 8999) t).fc.tec = 8 := by decide +kernel
theorem test_arbitrationLoss :
    (next (.arbitrationLoss 2 3000) (sending noticeSent (run21 .main))).slc.mark = .lost := by decide +kernel
/-- File 09, BIT ERRORS TO QUIET AND BACK: 127 + 8 = 135 is QUIET. -/
theorem test_bitError :
    let s := sending noticeSent (run21 .ready)
    let t := next (.bitError 0 8999) { s with fc := { s.fc with tec := 127 } }
    t.fc.tec = 135 ∧ t.fc.link = .quiet := by decide +kernel
/-- R60, R62: one pulse that is a bit error and a symbol error counts at both sides, the read-back coming first (log 38). -/
theorem test_bitError_then_malformed :
    let t := next (.bitError 3 2000) (sending noticeSent (run21 .main))
    let u := next (.malformedFrame (.symbol [false, true] 2000)) t
    t.slc.tx = none ∧ u.fc.tec = 8 ∧ u.fc.recCount = 1 ∧ u.slc.phase = .hunt := by decide +kernel
theorem test_sendSymbolError :
    (next (.sendSymbolError 0 11001) (sending noticeSent (run21 .ready))).fc.tec = 0 := by decide +kernel
theorem test_malformedFrame :
    let t := next (.malformedFrame (.byteEnd (lineBits [0x31, 0x05, 0x0C, 0x00, 0x53]))) (run21 .main)
    t.slc.phase = .hunt ∧ t.fc.recCount = 1 := by decide +kernel
/-- R62: the own SOF that ran too long, once its sending has stopped. -/
theorem test_malformedFrame_ownSof :
    let t := next (.sendSymbolError 0 11001) (sending noticeSent (run21 .ready))
    (next (.malformedFrame (.ownSof 11001)) t).fc.recCount = 1 ∧
      (next (.malformedFrame (.ownSof 11001)) t).slc.phase = .hunt := by decide +kernel
theorem test_ownNoticeComplete :
    let t := next .ownNoticeComplete (sending noticeSent (run21 .main))
    t.slc.reportTimer = some 30 ∧ t.lest.lRep = some (Rgb.all 12000) := by decide +kernel
theorem test_ownAskComplete :
    (next .ownAskComplete (sending (.main ⟨21, 4, .ask 0⟩) (run21 .main))).ptab.awaited = true := by decide +kernel
theorem test_ownStakeComplete :
    (next .ownStakeComplete (sending (.main ⟨63, 6, .stake uidS 0⟩) (tile .claiming none .main))).slc.phase = .window := by
  decide +kernel
theorem test_ownMusterComplete :
    (next .ownMusterComplete (sending (.main ⟨21, 62, .muster 0⟩) (run21 .main))).slc.tx = none := by decide +kernel
theorem test_noticeReceived :
    (next (.noticeReceived 10 (Rgb.all 10890) 0x01) (run21 .main)).ptab.slots.get 10 = .fresh (Rgb.all 10890) 0x01 0 0 := by
  decide +kernel
/-- File 07, NEWCOMERS BY MUSTER AND ASK: the source is HEARD and asked, and the own byte goes out. -/
theorem test_musterReceived :
    let t := next (.musterReceived 9 0) (run21 .main)
    t.ptab.slots.get 9 = .heard 0 0 ∧ t.slc.ask.content = some ⟨9, 0⟩ ∧ t.slc.tx = some (.muster 21) := by decide +kernel
/-- File 06, A DUPLICATE AFTER SECTIONS ARE JOINED: HELD from a lower UID is yielded to at EOB. -/
theorem test_stakeReceived :
    (next (.stakeReceived 63 21 (uidS + 1) 1) (run21 .main)).slc.tx = some (.contest 21) ∧
      (next (.stakeReceived 63 21 (uidS - 1) 1) (run21 .main)).sid.st = .claiming ∧
      (next (.stakeReceived 63 21 (uidS - 1) 1) (run21 .main)).sid.search = some (22, false) := by decide +kernel
/-- The data of the answer being sent, without its CRC-8. -/
def answerOf (s : State) : List Byte := (s.slc.tx.map fun x => x.bytes.dropLast).getD []
/-- ANSWER BLOCKS (file 12), one for each selector, with 12000 = 0x2EE0. -/
theorem test_capability :
    answerOf (next (.capability 5 21) (run21 .main)) = [0, 0x2E, 0xE0, 0x2E, 0xE0, 0x2E, 0xE0, 0] := by decide +kernel
theorem test_status :
    let s := run21 .main
    answerOf (next (.status 5 21) { s with evu := { s.evu with latched := 0x0102 }, fc := { s.fc with recCount := 3 } }) =
      [0, 0, 0, 1, 2, 3, 0, 0, 2] := by decide +kernel
/-- File 11, A CLEAR DURING A HOT AFTERNOON: the capture clears the marks. -/
theorem test_statusClear :
    let s := run21 .main
    (next (.statusClear 5 21) { s with evu := { s.evu with latched := 0x0102, marks := 0x0102 } }).evu.marks = 0 := by
  decide +kernel
theorem test_identity :
    answerOf (next (.identity 5 21) (run21 .main)) = [0, 0x00, 0x12, 0x77, 0x55, 0x0A, 0x31, 0xE2, 0xB6, 21] := by
  decide +kernel
theorem test_gains :
    let s := run21 .main
    answerOf (next (.gains 5 21) { s with tge := { s.tge with size := 6, marks := ⟨true, false, true⟩, belowFloor := true } }) =
      [0, 0x0F, 0, 0x0F, 0, 0x0F, 0, 6, 5, 2] := by decide +kernel
theorem test_targets :
    let s := run21 .main
    answerOf (next (.targets 5 21) { s with tge := { s.tge with target := some (Rgb.all 9675), median := some (Rgb.all 10511) } }) =
      [0, 0x25, 0xCB, 0x25, 0xCB, 0x25, 0xCB, 0x29, 0x0F, 0x29, 0x0F, 0x29, 0x0F] := by decide +kernel
theorem test_storeState : answerOf (next (.storeState 5 21) (run21 .main)) = [0, 0, 0, 0xFF, 0] := by decide +kernel
theorem test_page :
    let s := run21 .main
    answerOf (next (.page 5 21 15) { s with csto := { s.csto with array := [(127, 3)] } }) = [0, 0, 0, 0, 0, 0, 0, 0, 3] := by
  decide +kernel
theorem test_unknownSelector : answerOf (next (.unknownSelector 5 21 7) (run21 .main)) = [2] := by decide +kernel
theorem test_arm : (next (.arm 5 21 []) (run21 .main)).csto.latch = true := by decide +kernel
/-- The tile with the write latch set. -/
def armed (ph : Phase) : State := { run21 ph with csto := { (run21 ph).csto with latch := true } }
theorem test_disarm : (next (.disarm 5 21 []) (armed .main)).csto.latch = false := by decide +kernel
/-- R167: bytes 119..126 are the last that a BURN takes; 120 + 8 = 128 is RANGE. -/
theorem test_burn :
    (next (.burn 5 21 [119, 1, 2, 3, 4, 5, 6, 7, 8]) (armed .main)).slc.tx = some (.status 0x01) ∧
      (next (.burn 5 21 [120, 1, 2, 3, 4, 5, 6, 7, 8]) (armed .main)).slc.tx = some (.status 0x04) := by decide +kernel
theorem test_lock :
    (next (.lock 5 21 [7]) (armed .main)).csto.burn = some (.lock 7 0) ∧
      (next (.lock 5 21 [8]) (armed .main)).slc.tx = some (.status 0x04) := by decide +kernel
theorem test_unknownCommand : (next (.unknownCommand 5 21 5 []) (armed .main)).slc.tx = some (.status 0x08) := by decide +kernel
theorem test_contestByteReceived :
    (next (.contestByteReceived 6) (inWindow (freshWindow ⟨63, 6, .stake 0 0⟩ false) (run21 .window))).ptab.slots.get 6 =
      .heard 0 0 := by decide +kernel
theorem test_musterByteReceived :
    let s := inWindow (freshWindow ⟨9, 62, .muster 0⟩ false) (run21 .window)
    (next (.musterByteReceived 4) { s with slc := { s.slc with musterReply := .waiting } }).slc.tx = some (.muster 21) := by
  decide +kernel
/-- File 05, ASK OUTCOMES: a failed check is BAD and raises the tries. -/
theorem test_answerBlockReceived :
    let s := withSlot 12 (.heard 0 0) (inWindow (freshWindow ⟨21, 12, .ask 0⟩ true) (run21 .window))
    (next .frameEof (next (.answerBlockReceived [0, 1]) s)).ptab.slots.get 12 = .heard 0 1 := by decide +kernel
theorem test_fixtureStatusByteReceived :
    (next (.fixtureStatusByteReceived 1) (inWindow (freshWindow ⟨5, 12, .fixture [1]⟩ false) (run21 .window))).slc.window.map
      Window.seen = some 1 := by decide +kernel
theorem test_replyBlockError :
    (next (.replyBlockError ⟨1, .symbol 2000⟩) (inWindow (freshWindow ⟨21, 12, .ask 0⟩ true) (run21 .window))).fc.recCount = 1 := by
  decide +kernel
/-- File 11, A CLEAR DURING A HOT AFTERNOON: HOT and NOSYNC are cleared, CRIT, which arose since, is not. -/
theorem test_ownReplyComplete :
    let s := inWindow (freshWindow ⟨5, 21, .ask 2⟩ false) (run21 .window)
    let s : State := { s with evu := { s.evu with latched := 0x0106, marks := 0x0004 } }
    (next .ownReplyComplete (sending (.answer [0, 0] (some 0x0102)) s)).evu.latched = 0x0004 := by decide +kernel
/-- File 06: S takes address 6 with report timer 12; a contested claimant goes on from 7. -/
def claimS (first : FirstBlock) : State :=
  let s := tile .claiming none .window
  inWindow { freshWindow ⟨63, 6, .stake uidS 0⟩ true with first := first } { s with sid := { s.sid with candidate := some 6 } }
theorem test_frameEof_claim :
    (next .frameEof (claimS .nothing)).sid.own = some 6 ∧ (next .frameEof (claimS .nothing)).slc.reportTimer = some 12 := by
  decide +kernel
theorem test_frameEof_contested : (next .frameEof (claimS .delivered)).sid.candidate = some 7 := by decide +kernel
theorem test_reportTimerDue :
    let s := run21 .ready
    (next .reportTimerDue { s with slc := { s.slc with reportTimer := some 0 } }).slc.notice.content = some () := by
  decide +kernel
theorem test_spacingCountFull :
    let s := run21 .ready
    (next .spacingCountFull { s with slc := { s.slc with deferred := true } }).slc.notice.content = some () := by
  decide +kernel
/-- File 06: the listen timer at 60 stakes the seed. -/
theorem test_listenEnd :
    let s := tile .listen none .ready
    (next .listenEnd { s with sid := { s.sid with listen := some 60 } }).slc.stake.content = some ⟨6, .fresh, uidS⟩ := by
  decide +kernel
/-- File 07, A PEER GOES SILENT: STALE at data age 120, EMPTY at heard age 360, at the tick that brings the age there. -/
theorem test_tick_tests_the_slots :
    let s := withSlot 12 (.fresh (Rgb.all 10320) 0 119 119) (withSlot 13 (.stale (Rgb.all 10320) 0 359 359) (run21 .ready))
    (next (.fsyncEdge 4000) s).ptab.slots.get 12 = .stale (Rgb.all 10320) 0 120 120 ∧
      (next (.fsyncEdge 4000) s).ptab.slots.get 13 = .empty := by decide +kernel

theorem test_slotStale :
    (next .slotStale (withSlot 12 (.fresh (Rgb.all 10320) 0 120 120) (run21 .ready))).ptab.slots.get 12 =
      .stale (Rgb.all 10320) 0 120 120 := by decide +kernel
theorem test_slotRemoval :
    (next .slotRemoval (withSlot 12 (.stale (Rgb.all 10320) 0 360 360) (run21 .ready))).ptab.slots.get 12 = .empty := by
  decide +kernel
theorem test_driverTransferComplete :
    let s := run21 .ready
    (next .driverTransferComplete { s with drvp := { s.drvp with sending := some ⟨1, 2, 4096⟩ } }).drvp.latched =
      gainBits 1 ++ gainBits 2 ++ gainBits 4096 := by decide +kernel
theorem test_silenceExpiry :
    let s := run21 .ready
    (next .silenceExpiry { s with fc := { s.fc with tec := 135, link := .quiet } }).fc.link = .active := by decide +kernel
/-- File 09, A DRIVER THAT LATCHES: detach 3 at 58 s latches, at 61 s it would not. -/
theorem test_detach :
    let s := run21 .ready
    let s : State := { s with fc := { s.fc with history := [0, 25000000] } }
    (next (.detach 58000000 17) s).fc.link = .latched ∧ (next (.detach 61000000 17) s).fc.history = [25000000, 61000000] := by
  decide +kernel
theorem test_detachRecovery :
    let t := next (.detachRecovery false) (next (.detach 0 17) (run21 .ready))
    t.fc.link = .active ∧ t.fc.tec = 96 := by decide +kernel
theorem test_detachHistoryClear :
    (next .detachHistoryClear (next (.detach 0 17) (run21 .ready))).fc.history = [] := by decide +kernel
theorem test_busStuckSet : (next (.busStuckSet 1001) (run21 .ready)).fc.busStuck = true := by decide +kernel
theorem test_busStuckClear :
    (next .busStuckClear (next (.busStuckSet 1001) (run21 .ready))).slc.phase = .ready := by decide +kernel
/-- R168: bits are set and none cleared; a byte that does not take its data is VERIFY. -/
theorem test_burnByteComplete :
    let s := armed .ready
    let t := next (.burnByteComplete 0)
      { s with csto := { s.csto with array := [(5, 0x81)], burn := some (.bytes 5 [0x0F] 0) } }
    t.csto.array = [(5, 0x8F)] ∧ t.csto.lastResult = .verify ∧ t.csto.latch = false := by decide +kernel
theorem test_lockComplete :
    let s := armed .ready
    let t := next .lockComplete { s with csto := { s.csto with array := [(127, 1)], burn := some (.lock 2 1) } }
    t.csto.array = [(127, 3)] ∧ t.csto.lastResult = .done := by decide +kernel
theorem test_startOfFrame :
    (next (.startOfFrame 0 9000) (run21 .ready)).slc.phase = .main ∧
      (next (.startOfFrame 0 8999) (run21 .ready)).slc.phase = .ready := by decide +kernel

/-! ### The hypotheses of each statement are met -/

theorem witness_StepRunsTheFrontCommand :
    ((run21 .ready).setPending [.frameEof, .reset]).pending = .frameEof :: [.reset] ∧ (run21 .ready).pending = [] ∧
      (run21 .ready).slc.tx = none ∧ State.reset.pins.resetHeld = true ∧ State.reset.pending = [] ∧
      (let s := next (.transmitStart ⟨0, 10000⟩) (noticeDue .ready)
       let t : State := s.setSlc s.slc.partPasses
       s.pending = [] ∧ s.slc.tx = some noticeSent ∧ s.slc.driver = .released ∧ s.slc.phase ≠ .ready ∧
         s.slc.txPos + 1 < noticeSent.symbols.length ∧ t.slc.driver = .driving ∧ t.slc.phase = .main ∧
         noticeSent.symbols[t.slc.txPos]? = some (bitSymbol false) ∧ t.slc.rx = some .fresh) ∧
      (let s := sending (.contest 21) (winOf (.stake 0 0) false 0)
       s.pending = [] ∧ s.slc.tx = some (.contest 21) ∧ s.slc.driver = .driving) :=
  ⟨rfl, rfl, rfl, rfl, rfl, by decide +kernel, by decide +kernel⟩

theorem witness_ResetCutsABurnOff :
    let s (b : Burn) : State := { run21 .ready with csto := { (run21 .ready).csto with array := [(5, 1)], burn := some b } }
    (s (.bytes 119 [1, 2, 3, 4, 5, 6, 7, 8] 7)).csto.array.wf = true ∧
      (∃ off data i, (s (.bytes 119 [1, 2, 3, 4, 5, 6, 7, 8] 7)).csto.burn = some (.bytes off data i) ∧ 126 = off + i ∧
        (8 : Byte) = data.getD i 0) ∧
      ∃ marks before, (s (.lock 7 0)).csto.burn = some (.lock marks before) ∧ 127 = 127 ∧ (7 : Byte) = marks :=
  ⟨rfl, ⟨119, [1, 2, 3, 4, 5, 6, 7, 8], 7, rfl, rfl, rfl⟩, ⟨7, 0, rfl, rfl, rfl⟩⟩

theorem witness_ReleaseStartsTheTimers : State.reset.pins.resetHeld = true ∧ (run21 .ready).live := ⟨rfl, rfl⟩

/-- A released part before loading ends. -/
def loading : State := next (.resetRelease 0 true) State.reset
theorem witness_LoadingStartsEveryBlock :
    loading.live ∧ loading.csto.loaded = none ∧ (loadParams loading.csto.array).setDefault = true ∧
      (loadParams loading.csto.array).uncal = true ∧ loading.evu.raw.getLsbD 4 = false ∧
      loading.tge.recompute (loadParams loading.csto.array) = loading.tge ∧ loading.sid.st = .load ∧
      loading.ptab.askTarget = none :=
  ⟨rfl, rfl, by decide +kernel, by decide +kernel, by decide +kernel, rfl, rfl, rfl⟩

/-- A channel block of tile A (R162): L_ref 12000, S_ref 20000 and the curve. -/
def blockA : List Byte :=
  [0x2E, 0xE0, 0x4E, 0x20, 0x8C, 0xCD, 0x89, 0x9A, 0x86, 0x66, 0x80, 0x00, 0x79, 0x9A, 0x73, 0x33, 0x6C, 0xCD, 0x66, 0x66, 0x60, 0x00]
/-- The start of a CHAR section. -/
def charHead : List Byte := [0x45, 0x54, 0x34, 0x36, 0x01, 80, 0, 0]
/-- Settings out of their ranges, for R163's clamps and relations. -/
def setOutOfRange : List Byte := [7, 16, 2, 65, 127, 127, 65, 71, 59, 0, 0, 0x01, 0x02, 0x01]
/-- An array with both sections valid; their CRCs are the spec's CRC-16, computed apart from the model. -/
def arrayA : Memory :=
  let bytes := charHead ++ blockA ++ blockA ++ blockA ++ [0, 0, 0, 0, 0xC9, 0xA6] ++ setOutOfRange ++ [0x37, 0xE7]
  ((List.range 96).zip bytes).filter fun c => c.2 != 0

/-- The CRC-16 of arrayA's CHAR section, a block at a time. -/
theorem crc16_arrayA : crc16 (arrayA.readMany 0 78) = 0xC9A6 := by
  have h : arrayA.readMany 0 78 = charHead ++ blockA ++ blockA ++ blockA ++ [0, 0, 0, 0] := by decide +kernel
  have h1 : charHead.foldl crc16Byte 0xFFFF = 0x643D := by decide +kernel
  have h2 : blockA.foldl crc16Byte 0x643D = 0x3C41 := by decide +kernel
  have h3 : blockA.foldl crc16Byte 0x3C41 = 0x3A33 := by decide +kernel
  have h4 : blockA.foldl crc16Byte 0x3A33 = 0x650F := by decide +kernel
  have h5 : ([0, 0, 0, 0] : List Byte).foldl crc16Byte 0x650F = 0xC9A6 := by decide +kernel
  rw [h, crc16, List.foldl_append, List.foldl_append, List.foldl_append, List.foldl_append, h1, h2, h3, h4, h5]

theorem witness_LoadedCopyInRange :
    CharSectionValid arrayA ∧ SetSectionValid arrayA ∧ ¬CharSectionValid (arrayA.program 19 1) ∧
      ¬SetSectionValid (arrayA.program 93 2) ∧ ¬CharSectionValid [] := by
  refine ⟨⟨by decide +kernel, by decide +kernel, by decide +kernel, by decide +kernel, ?_, by decide +kernel⟩,
    ⟨by decide +kernel, by decide +kernel⟩, fun h => ?_, fun h => absurd h.1 (by decide +kernel), fun h => absurd h.1 (by decide +kernel)⟩
  · rw [crc16_arrayA]; decide +kernel
  · exact absurd (h.2.2.2.2.2 8 (by decide)).2.2.1 (by decide +kernel)

/-- R162, R163: the values held; the clamps, and the relations after them. -/
theorem test_storedParams :
    let p := (storedParams arrayA (charBlocks arrayA) false).relate
    p.chars = Rgb.all chA ∧ p.period = 8 ∧ p.staleLimit = 15 ∧ p.goneLimit = 16 ∧ p.headroomLoss = 64 ∧ p.tHot = 70 ∧
      p.tCrit = 75 ∧ p.senseInterval = 1 ∧ p.faultMask = 0x0102 ∧ setValid arrayA = true := by decide +kernel

/-- The tile without an address, every slot as given. -/
def full (st : IdState) (x : PeerSlot) : State :=
  let s := tile st none .ready
  { s with ptab := { s.ptab with slots := Vector.replicate 48 x } }
/-- With the hand-off of a slot emptied by aging on its way to station identity. -/
def emptiedOnTheWay (s : State) : State := { s with sid := { s.sid with emptied := true } }
theorem witness_EdgesAndExpiriesTick :
    State.reset.pins.resetHeld = true ∧ (run21 .ready).live ∧ (∀ e, (run21 .ready).ftb.lastEdge = some e → e + 4000 ≤ 4000) ∧
      (run21 .ready).ftb.lastEdge = some 0 ∧ 0 ≤ 3999 ∧ 3999 < 0 + 4000 ∧ (run21 .ready).ftb.syncTimer = some 40000 ∧
      (run21 .ready).csto.loaded = some pA ∧
      (loading.live ∧ loading.csto.loaded = none ∧ loading.sid.st = .load ∧ loading.ftb.lastEdge = none ∧
        loading.ftb.syncTimer = some 40000) ∧
      (let s := full .unaddressed (.heard 359 0)
       s.live ∧ s.ftb.lastEdge = some 0 ∧ s.csto.loaded = some pA ∧ s.sid.st = .unaddressed ∧ s.fc.link = .active ∧
         s.slc.stake = .empty ∧ s.sid.emptied = false ∧ (s.ptab.slots.get 5).ticked pA = .empty ∧
         s.ptab.slots.get 5 ≠ .empty ∧ s.lest.l.isSome ∧ (emptiedOnTheWay s).sid.emptied = true ∧
         (emptiedOnTheWay s).sid.st = .unaddressed) ∧
      (run21 .ready).tge.recompute pA = (run21 .ready).tge :=
  ⟨rfl, rfl, fun _ h => by cases h; exact Nat.le_refl _, rfl, by decide, by decide, rfl, rfl, ⟨rfl, rfl, rfl, rfl, rfl⟩,
    by unfold State.live; decide +kernel, rfl⟩

/-- R139: where a tick makes a slot STALE, its slew goes toward the target with that slot or without it; both are free. -/
theorem test_tick_slews_before_or_after_stale :
    let e : Tge := { (run21 .ready).tge with
      own := some ⟨Rgb.all 12000, 0⟩, peers := (run21 .ready).tge.peers.set 12 (some ⟨Rgb.all 6000, 0⟩) }
    let s := withSlot 12 (.fresh (Rgb.all 6000) 0 119 119) { run21 .ready with tge := e.recompute pA }
    (tickIn false false s).tge.applied = Rgb.all 3836 ∧ (tickIn true false s).tge.applied = Rgb.all 3840 := by decide +kernel

/-- R114: a slot emptied by a tick is refilled by a delivery at the same moment; the claim passes it over (R93). -/
theorem test_claim_passes_a_refilled_slot_over :
    let s := tickIn false true (withSlot 6 (.heard 359 0) (withSlot 9 .empty (full .unaddressed (.heard 0 0))))
    let t := next .slotRemoval (next (.noticeReceived 6 (Rgb.all 64) 0) { s with slc := { s.slc with phase := .main } })
    s.ptab.slots.get 6 = .empty ∧ s.sid.st = .unaddressed ∧ t.sid.st = .claiming ∧ t.sid.candidate = some 9 := by
  decide +kernel

/-- The tile with a temperature read in flight, TFAULT as given. -/
def reading (tfault : Bool) : State :=
  { run21 .ready with lsb := { Lsb.reset with inFlight := some .temperature },
                      tmon := { (run21 .ready).tmon with tfault := tfault, validRun := 4, failRun := 9 } }
/-- With the sequencer in ARMED, its count waiting for the bus. -/
def countWaits (s : State) : State :=
  { s with lsb := { s.lsb with sseqWaiting := true }, sseq := { s.sseq with st := .armed, drive := some .r } }
theorem witness_SampleMovesTheFilter :
    (reading false).live ∧ (reading false).lsb.inFlight = some .temperature ∧ (reading false).tmon.tfault = false ∧
      (-640 : Int) ≤ -640 ∧ (-640 : Int) ≤ 2000 ∧ (reading false).csto.loaded = some pA ∧
      (reading false).tge.recompute pA = (reading false).tge ∧
      (let s := countWaits (reading false)
       s.live ∧ s.lsb.inFlight = some .temperature ∧ s.tmon.tfault = false ∧ stateAfterBus s = .wait ∧ s.sseq.st = .armed) :=
  ⟨rfl, rfl, rfl, by decide, by decide, rfl, rfl, rfl, rfl, rfl, by unfold stateAfterBus; decide, rfl⟩
/-- R36, R15: the end of a read starts the waiting count. -/
theorem test_temperatureRead_starts_the_count :
    let t := next (.temperatureReadCompletion none) (countWaits (reading true))
    t.sseq.st = .wait ∧ t.lsb.inFlight = some .count ∧ t.lsb.sseqWaiting = false := by decide +kernel

theorem witness_RunsRaiseAndClearTfault :
    (reading true).live ∧ (reading true).lsb.inFlight = some .temperature ∧ (reading true).tmon.tfault = true ∧
      (∀ x : Int, (some (-641) : Option Int) = some x → x < -640 ∨ 2000 < x) ∧
      (∀ x : Int, (none : Option Int) = some x → x < -640 ∨ 2000 < x) ∧ (reading true).csto.loaded = some pA ∧
      (let s : State := { reading true with
         sseq := { (reading true).sseq with heldTfault := true, settling := true, settleCount := none } }
       s.live ∧ s.lsb.inFlight = some .temperature ∧ s.tmon.tfault = true ∧ 4 ≤ s.tmon.validRun ∧
         s.csto.loaded = some pA ∧ s.sseq.heldTfault = true ∧ s.sseq.settling = true ∧ s.sseq.settleCount = none) ∧
      (reading true).tge.recompute pA = (reading true).tge :=
  ⟨rfl, rfl, rfl, fun _ h => by cases h; decide, fun _ h => (by cases h), rfl,
    ⟨rfl, rfl, rfl, by decide, rfl, rfl, rfl, rfl⟩, rfl⟩

theorem witness_SenseWindowsOpenAndClose :
    (due .r).live ∧ (due .r).sseq.st = .due ∧ (due .r).sseq.heldTfault = false ∧ (due .r).sseq.late = false :=
  ⟨rfl, rfl, rfl, rfl⟩

/-- The tile with a count in flight for channel `c`. -/
def counting (c : Channel) (settling heldTfault late : Bool) : State :=
  { due c with lsb := { Lsb.reset with inFlight := some .count },
               sseq := { (due c).sseq with st := .wait, drive := some c, settling := settling, settleRounds := 2,
                                           heldTfault := heldTfault, late := late } }
theorem witness_CountOutcomeIsClassed :
    (∀ c : Channel, ∀ a b d : Bool, (counting c a b d).live ∧ (counting c a b d).lsb.inFlight = some .count ∧
      (counting c a b d).csto.loaded = some pA ∧ (counting c a b d).lest.f = some (Rgb.all 32768) ∧
      (counting c a b d).sseq.st = .wait ∧ (counting c a b d).sseq.late = d ∧ (counting c a b d).sseq.heldTfault = b ∧
      (counting c a b d).sseq.chan = c ∧ (counting c a b d).tge.recompute pA = (counting c a b d).tge) ∧
      (1 : BitVec 16) ≠ 0 ∧ (65534 : BitVec 16) ≠ 65535 ∧
      (let s := countWaits (counting .r false false true)
       s.live ∧ s.lsb.inFlight = some .count ∧ s.csto.loaded = some pA ∧ s.lest.f = some (Rgb.all 32768) ∧ s.sseq.late = true ∧
         s.sseq.st = .armed ∧ s.lsb.sseqWaiting = true) ∧
      (reading false).sseq.st ≠ .wait ∧ (reading false).sseq.late = false :=
  ⟨fun _ _ _ _ => ⟨rfl, rfl, rfl, rfl, rfl, rfl, rfl, rfl, rfl⟩, by decide, by decide, ⟨rfl, rfl, rfl, rfl, rfl, rfl, rfl⟩, by decide, rfl⟩

/-- The tile with both round timers at their limits. -/
def timersFull : State :=
  { run21 .ready with sseq := { (run21 .ready).sseq with settling := true, interval := some 14336, settleCount := some 14336 } }
theorem witness_PollAndRoundTimersExpire :
    timersFull.live ∧ timersFull.tmon.pollTimer = some 100000 ∧ timersFull.csto.loaded = some pA ∧ timersFull.sseq.st = .idle ∧
      timersFull.sseq.interval = some 14336 ∧ pA.senseInterval * 256 ≤ 14336 ∧ timersFull.sseq.settling = true ∧
      timersFull.sseq.settleCount = some 14336 ∧ 4 * pA.senseInterval * 256 ≤ 14336 :=
  ⟨rfl, rfl, rfl, rfl, rfl, by decide, rfl, rfl, by decide⟩

/-- With the engine at work, and the values reported `n` ticks ago. -/
def judged (n : Nat) (s : State) : State :=
  let t := settle s
  { t with slc := { t.slc with spacing := n },
           lest := { t.lest with lRep := some (Rgb.all 12000), flagsRep := some t.lest.ownFlags } }
/-- The engine follows its inputs after loading. -/
theorem engineInv_of {s : State} {p : Params} {l : Rgb Nat} (hp : s.csto.loaded = some p) (hl : s.lest.l = some l)
    (ho : s.tge.own = some ⟨l, s.lest.ownFlags⟩) (hc : s.tge.crit = s.tmon.crit) (hf : ContributionsFollow s)
    (hr : s.tge.recompute p = s.tge) : EngineInv s := by
  refine ⟨fun h => by simp [hp] at h, fun q hq => ⟨by simp [hl], fun m hm => ?_, ?_⟩⟩
  · obtain rfl : l = m := Option.some.inj (hl.symm.trans hm)
    exact ⟨ho, hc, hf⟩
  · obtain rfl : p = q := Option.some.inj (hp.symm.trans hq)
    exact hr
/-- With address 12 reporting five times the own triple, `d` ticks ago. -/
def brightPeer (d : Nat) (s : State) : State := withSlot 12 (.fresh (Rgb.all 60000) 0 d d) s
/-- R30: a change of the own triple or of the own flags at each of the events whose evaluation is stated. -/
theorem witness_Evaluated :
    ∀ x ∈ [(Instr.temperatureReadCompletion (some 2000), judged 4 (reading false)),
        (.temperatureReadCompletion none, judged 4 (reading false)),
        (.senseWindowClose, judged 4 { countWaits (due .r) with
          sseq := { (countWaits (due .r)).sseq with fails := ⟨2, 0, 0⟩ } }),
        (.countArrival (some 18700), judged 4 (counting .r false false false)), (.settleTimeout, judged 4 timersFull),
        (.substituteTick, judged 3 (run21 .ready)),
        (.noticeReceived 13 (Rgb.all 60000) 0, judged 4 (brightPeer 0 (run21 .main))),
        (.slotStale, judged 4 (brightPeer 120 (withSlot 13 (.fresh (Rgb.all 60000) 0 0 0) (run21 .ready))))],
      x.2.pins.resetHeld = false ∧ x.2.csto.loaded = some pA ∧ x.2.lest.l = some (Rgb.all 12000) ∧
        x.2.tge.own = some ⟨Rgb.all 12000, x.2.lest.ownFlags⟩ ∧ x.2.sid.st = .run ∧ x.2.slc.notice = .empty ∧
        ((next x.1 x.2).lest.l ≠ x.2.lest.l ∨ (next x.1 x.2).lest.ownFlags ≠ x.2.lest.ownFlags) ∧
        (next x.1 x.2).lest.significant = true ∧ (next x.1 x.2).slc.notice.content = some () := by decide +kernel
/-- R30, R76: below spacing count 4 the early request that a count brings about is deferred. -/
theorem test_count_defers_the_request :
    let t := next (.countArrival (some 18700)) (judged 3 (counting .r false false false))
    t.lest.l = some ⟨11805, 12000, 12000⟩ ∧ t.slc.notice = .empty ∧ t.slc.deferred = true := by decide +kernel

theorem witness_ThermalFactorInItsSpan :
    chA.curve.length = 9 ∧ (∀ x ∈ chA.curve, 16384 ≤ x ∧ x ≤ 40960) ∧ chA.curve.getD 3 0 = 32768 ∧ (0 < 8 ∧ -160 + 160 * ((0 : Nat) : Int) ≤ -160 ∧ (-160 : Int) ≤ -160 + 160 * (((0 : Nat) : Int) + 1)) ∧
      (7 < 8 ∧ -160 + 160 * ((7 : Nat) : Int) ≤ 1120 ∧ (1120 : Int) ≤ -160 + 160 * (((7 : Nat) : Int) + 1)) := by decide

theorem witness_TargetFollowsSmallestReachable :
    240 ≤ 256 ∧ 179 < 256 ∧ [10511, 10890, 7100].Perm [7100, 10511, 10890] ∧ 3 ≤ [10511, 10890, 7100].length ∧
      ([] : List Nat).Perm [] ∧ [10511, 7100].Perm [7100, 10511] ∧ 1 ≤ [10511].length ∧ [10511, 7100].length ≤ 2 := by decide

theorem witness_GainsFollowTheTargets :
    let t : Tge := { Tge.reset with own := some ⟨Rgb.all 64, 0⟩ }
    pA.settingsInRange ∧ t.own = some ⟨Rgb.all 64, 0⟩ ∧ ∀ c : Channel, 0 < (Rgb.all 64).get c :=
  ⟨by unfold Params.settingsInRange; decide, rfl, fun c => by cases c <;> decide⟩

theorem witness_TransferGivesThirtyNineBits :
    let s : State := { run21 .ready with drvp := { Drvp.reset [] with sending := some ⟨2048, 3840, 4096⟩ } }
    s.live ∧ s.drvp.sending = some ⟨2048, 3840, 4096⟩ ∧ s.drvp.sending.isSome ∧ s.drvp.pending = none ∧
      (Drvp.reset []).sending = none ∧ (s.drvp.arrive (Rgb.all 2048)).sending.isSome := ⟨rfl, rfl, rfl, rfl, rfl, rfl⟩
/-- R141: a newer set overtakes the one that waits, and the transfer in flight goes on. -/
theorem test_newer_set_overtakes :
    let d := (((Drvp.reset []).arrive (Rgb.all 3840)).arrive (Rgb.all 3836)).arrive (Rgb.all 3832)
    d.sending = some (Rgb.all 3840) ∧ d.pending = some (Rgb.all 3832) := by decide +kernel

theorem witness_CrcSeesEveryChangedByte :
    (0x00 : Byte) ≠ 0x01 ∧
      (let f : Frame := ⟨5, 12, .ask 0⟩
       f.malformed = false ∧ (1 ≤ 1 ∧ 1 < f.bytes.length ∧ f.bytes[1]? ≠ some 4) ∧
         (1 ≤ 4 ∧ 4 < f.bytes.length ∧ f.bytes[4]? ≠ some 0x53)) := by decide +kernel

theorem witness_ReceiverFindsFrames :
    (run21 .hunt).live ∧ (run21 .hunt).slc.phase = .hunt ∧ (run21 .hunt).fc.busStuck = false ∧ (run21 .ready).live ∧
      (run21 .ready).slc.phase = .ready ∧ (run21 .ready).slc.tx = none ∧ 9000 ≤ 9000 ∧ 11000 ≤ 11000 ∧ 8999 < 9000 ∧ 11000 < 11001 ∧
      ((500 ≤ 500 ∧ 1500 ≤ 1500) ∧ (2500 ≤ 2500 ∧ 3500 ≤ 3500) ∧ 499 < 500 ∧ (1500 < 1501 ∧ 2499 < 2500) ∧ 3500 < 3501) ∧
      (sending noticeSent (run21 .main)).slc.sendingMain = true ∧
      (∀ n : Nat, (winOf (.ask 0) false n).live ∧ (winOf (.ask 0) false n).slc.phase = .window ∧
        (winOf (.ask 0) false n).slc.window = some { freshWindow ⟨9, 47, .ask 0⟩ false with seen := n }) ∧
      0 < (Body.ask 0).kind.blocksAllowed ∧ (Body.ask 0).kind.blocksAllowed ≤ 1 ∧
      (sending (.answer [0, 0] none) (winOf (.ask 0) false 0)).slc.sendingReply = true :=
  ⟨rfl, rfl, rfl, rfl, rfl, rfl, by decide, by decide, by decide, by decide, by decide, rfl, fun _ => ⟨rfl, rfl, rfl⟩, by decide,
    by decide, rfl⟩
/-- R51, R59: a pulse between the bits, 1501 to 2499 ns, condemns a main part; one of 3500 ns is a bit. -/
theorem test_startOfFrame_in_main :
    (next (.startOfFrame 0 1501) (run21 .main)).slc.phase = .hunt ∧ (next (.startOfFrame 0 3500) (run21 .main)).slc.phase = .main := by
  decide +kernel

/-- The tile in state `st` with the slots given. -/
def slots (st : IdState) (own : Option Addr) (stake : OutSlot StakeReq) (ask : OutSlot AskReq) (notice : OutSlot Unit)
    (muster : OutSlot Byte) : State :=
  { tile st own .ready with slc := { (tile st own .ready).slc with stake := stake, ask := ask, notice := notice, muster := muster } }
theorem witness_IdleStartsTheLowestKind :
    let a := slots .claiming none ⟨some ⟨47, .fresh, uidS⟩, false, none⟩ .empty .empty .empty
    let b := slots .run (some 0) .empty ⟨some ⟨47, 0⟩, false, none⟩ ⟨some (), false, none⟩ .empty
    let c := slots .run (some 0) .empty .empty ⟨some (), false, none⟩ ⟨some 0, false, none⟩
    let d := slots .run (some 0) .empty .empty .empty ⟨some 0, false, none⟩
    let e := slots .listen none .empty .empty .empty .empty
    let f := slots .claiming none .empty .empty ⟨some (), false, none⟩ .empty
    let g := slots .run (some 0) .empty .empty .empty .empty
    (∀ s ∈ [a, b, c, d, e, f, g], s.slc.phase = .ready ∧ s.slc.tx = none ∧ s.fc.link = .active) ∧
      f.sid.st = .claiming ∧ f.slc.stake.content = none ∧
      (g.sid.st = .run ∧ g.slc.stake.content = none ∧ g.slc.ask.content = none ∧ g.slc.notice.content = none ∧
        g.slc.muster.content = none) ∧
      (next (.transmitStart ⟨0, 9000⟩) d).slc.tx ≠ none ∧ (next (.transmitStart ⟨0, 8999⟩) d).slc.tx ≠ none ∧
      a.slc.stake.content = some ⟨47, .fresh, uidS⟩ ∧ b.slc.ask.content = some ⟨47, 0⟩ ∧ b.sid.own = some 0 ∧
      c.lest.l = some (Rgb.all 12000) ∧ c.slc.notice.content = some () ∧ d.slc.muster.content = some 0 ∧
      e.sid.st = .listen := by decide +kernel

/-- The own STAKE on the line in phase `ph`, withdrawn, with another content held for after it. -/
def withdrawnStake (ph : Phase) : State :=
  let s := sending (.main ⟨63, 6, .stake uidS 0⟩) (tile .claiming none ph)
  { s with slc := { s.slc with stake := ⟨some ⟨6, .fresh, uidS⟩, true, some ⟨7, .fresh, uidS⟩⟩ } }
theorem witness_LosingStopsWithoutError :
    (let s := sending noticeSent (run21 .main)
     s.live ∧ s.slc.tx = some noticeSent ∧ s.slc.phase = noticeSent.phaseAt 2 ∧ noticeSent.symbols[2]? = some .one ∧
       2500 ≤ 2500 ∧ 3500 ≤ 3500 ∧ noticeSent.carries .notice = true ∧ s.slc.notice.withdrawn = false) ∧
    (let s := withdrawnStake .main
     let x : Sending := .main ⟨63, 6, .stake uidS 0⟩
     s.slc.tx = some x ∧ s.slc.phase = x.phaseAt 4 ∧ x.symbols[4]? = some .one ∧
       x.carries .stake = true ∧ s.slc.stake.withdrawn = true) ∧
    (let s := sending (.status 1) (winOf (.fixture [1]) false 0)
     s.slc.tx = some (.status 1) ∧ s.slc.phase = (Sending.status 1).phaseAt 7 ∧ (Sending.status 1).symbols[7]? = some .one) :=
  ⟨⟨rfl, rfl, rfl, by decide +kernel, by decide, by decide, rfl, rfl⟩, by decide +kernel, by decide +kernel⟩

/-- The own muster byte being sent. -/
def musterSent : State :=
  let s := sending (.muster 21) (winOf (.muster 0) false 0)
  { s with slc := { s.slc with musterReply := .waiting } }
theorem witness_SendErrorsStopTheStation :
    (let s := sending noticeSent (run21 .main)
     s.live ∧ s.slc.tx = some noticeSent ∧ s.slc.phase = noticeSent.phaseAt 1 ∧ s.slc.phase = noticeSent.phaseAt 2 ∧
       (sending noticeSent (run21 .ready)).slc.phase = noticeSent.phaseAt 0 ∧
       noticeSent.symbols[0]? = some .sof ∧ noticeSent.symbols[1]? = some .zero ∧
       noticeSent.symbols[2]? = some .one ∧ 499 < 500 ∧ 2499 < 2500 ∧ 8999 < 9000 ∧ 3500 < 3501 ∧
       (1500 < 1501 ∧ 1501 < 2500) ∧ 11000 < 11001) ∧
    (withdrawnStake .ready).slc.phase = (Sending.main ⟨63, 6, .stake uidS 0⟩).phaseAt 0 ∧
    (withdrawnStake .ready).slc.stake.withdrawn = true ∧
    (musterSent.live ∧ musterSent.slc.tx = some (.muster 21) ∧ musterSent.slc.phase = (Sending.muster 21).phaseAt 0 ∧
      (Sending.muster 21).symbols[0]? = some .zero ∧ musterSent.slc.musterReply ≠ .notReplying) :=
  ⟨⟨rfl, rfl, rfl, rfl, rfl, by decide +kernel, by decide +kernel, by decide +kernel, by decide, by decide, by decide, by decide,
    by decide, by decide⟩, rfl, rfl, rfl, rfl, rfl, by decide +kernel, by decide⟩
/-- R80: a bit error in the own muster byte ends the muster reply; R51: the pulse begins the recessive time anew. -/
theorem test_bitError_in_muster_byte :
    (next (.bitError 0 2499) musterSent).slc.musterReply = .done ∧ (next (.bitError 0 2499) musterSent).slc.recessive = 0 := by
  decide +kernel

theorem witness_MalformedFrameIsDiscarded :
    (sending noticeSent (run21 .main)).live ∧ (sending noticeSent (run21 .main)).slc.phase = .main ∧
      (sending noticeSent (run21 .main)).slc.sendingMain = true ∧
      findingFound (.eof (lineBits [0x31, 5, 12, 0])) = true ∧ findingFound (.byteEnd (lineBits [0x30])) = true ∧
      findingFound (.symbol [] 1501) = true ∧ findingFound (.framing (lineBits [0x31, 5, 12, 0, 0x52]) 0) = true ∧
      (withdrawnStake .main).slc.stake.withdrawn = true ∧ (run21 .main).slc.tx = none ∧
      (let t := next (.sendSymbolError 0 11001) (sending noticeSent (run21 .ready))
       t.live ∧ findingFound (.ownSof 11001) = true ∧ t.slc.phase = .ready ∧ t.slc.mark = .stopped ∧ t.slc.tx = none) :=
  ⟨rfl, rfl, rfl, by decide +kernel, by decide +kernel, by decide, by decide +kernel, rfl, rfl,
    by unfold State.live; decide +kernel⟩

theorem witness_OwnNoticeCompletes :
    let s := sending noticeSent (run21 .main)
    s.live ∧ s.slc.tx = some (.main ⟨21, 62, .notice (Rgb.all 12000) 0⟩) ∧ s.slc.phase = .main ∧ s.slc.mark = .asSent ∧
      s.fc.link = .active ∧ s.sid.st = .run ∧ s.csto.loaded = some pA := ⟨rfl, rfl, rfl, rfl, rfl, rfl, rfl⟩

theorem witness_OwnRequestsComplete :
    let s (b : Body) : State := sending (.main ⟨21, 47, b⟩) (run21 .main)
    ∀ b : Body, (s b).live ∧ (s b).slc.phase = .main ∧ (s b).slc.mark = .asSent ∧ (s b).fc.link = .active ∧
      (s b).slc.tx = some (.main ⟨21, 47, b⟩) := fun _ => ⟨rfl, rfl, rfl, rfl, rfl⟩

/-- The receiver is taking in another station's main part. -/
theorem receiving_run21 : (run21 .main).receiving := ⟨rfl, rfl, rfl⟩
theorem holder_run21 : (run21 .main).holder 21 := ⟨rfl, rfl, rfl, rfl⟩

/-- The receiving tile in a link state, with the counts given. -/
def linked (l : LinkState) (tec : Nat) : State :=
  { run21 .main with fc := { (run21 .main).fc with link := l, tec := tec, cut := l.isDetached } }
/-- The part before loading ends, receiving a main part. -/
def loadingMain : State := { loading with slc := { loading.slc with phase := .main } }
theorem witness_NoticeMakesTheSlotFresh :
    (run21 .main).receiving ∧ (run21 .main).csto.loaded.isSome ∧ (run21 .main).ptab.slots.get 21 = .self ∧
      (run21 .main).ptab.slots.get 47 = .empty ∧ (run21 .main).sid.own ≠ some 47 ∧ (run21 .main).sid.search = none ∧
      (linked .quiet 96).receiving ∧ (linked .quiet 96).fc.tec - 1 < 96 ∧ ¬(linked .quiet 97).fc.tec - 1 < 96 ∧
      (run21 .main).tge.recompute pA = (run21 .main).tge ∧
      loadingMain.receiving ∧ loadingMain.csto.loaded = none ∧ loadingMain.sid.search = none ∧
      mainPart (.page 5 12 3) = some ⟨5, 12, .ask 0x83⟩ ∧ (⟨5, 12, .ask 0x83⟩ : Frame).malformed = false :=
  ⟨receiving_run21, rfl, by decide +kernel, by decide +kernel, by decide +kernel, rfl, ⟨rfl, rfl, rfl⟩, by decide, by decide, rfl,
    ⟨by unfold State.live; decide +kernel, rfl, rfl⟩, rfl, rfl, rfl, by decide +kernel⟩

theorem witness_DuplicateStartsReassertion :
    (run21 .main).receiving ∧ (run21 .main).sid.st = .run ∧ (run21 .main).sid.own = some 21 ∧
      (run21 .main).csto.loaded.isSome ∧ (run21 .main).sid.reassert = false ∧ (run21 .main).slc.stake = .empty ∧
      (linked .detached 0).receiving ∧
      (∀ c f, (c, f) ∈ [(Instr.musterReceived 21 0, (⟨21, 62, .muster 0⟩ : Frame)), (.capability 21 21, ⟨21, 21, .ask 0⟩),
          (.arm 21 21 [], ⟨21, 21, .fixture [1]⟩), (.stakeReceived 21 21 (uidS - 1) 1, ⟨21, 21, .stake (uidS - 1) 1⟩)] →
        mainPart c = some f ∧ f.malformed = false ∧ f.src = addrByte 21) ∧
      YieldsTo (run21 .main) 21 ⟨21, 21, .stake (uidS - 1) 1⟩ ∧ ¬YieldsTo (linked .quiet 0) 21 ⟨21, 21, .stake (uidS - 1) 1⟩ ∧
      ({ (run21 .main) with sid := { (run21 .main).sid with reassert := true } } : State).sid.reassert = true := by
  refine ⟨receiving_run21, rfl, rfl, rfl, rfl, rfl, ⟨rfl, rfl, rfl⟩, ?_, ⟨rfl, rfl, _, rfl, by decide +kernel⟩, ?_, rfl⟩
  · intro c f h
    simp only [List.mem_cons, Prod.mk.injEq, List.not_mem_nil, or_false] at h
    obtain ⟨rfl, rfl⟩ | ⟨rfl, rfl⟩ | ⟨rfl, rfl⟩ | ⟨rfl, rfl⟩ := h <;> exact ⟨rfl, by decide +kernel, rfl⟩
  · exact fun h => absurd h.1 (by decide)

theorem witness_MusterDrawsTheOwnByte :
    (run21 .main).receiving ∧ (run21 .main).sid.st = .run ∧ (run21 .main).sid.own = some 21 ∧
      (run21 .main).csto.loaded.isSome ∧ (run21 .main).fc.link = .active ∧ (21 : Byte).toNat ≤ (21 : Addr).val ∧
      (21 : Addr).val < (22 : Byte).toNat ∧ (linked .quiet 96).receiving ∧ (linked .quiet 96).fc.link ≠ .active ∧
      ∀ st ∈ [IdState.listen, .claiming, .unaddressed],
        (tile st none .main).receiving ∧ (tile st none .main).csto.loaded.isSome ∧ (tile st none .main).sid.st ≠ .run ∧
          (tile st none .main).sid.search = none :=
  ⟨receiving_run21, rfl, rfl, rfl, rfl, by decide, by decide, ⟨rfl, rfl, rfl⟩, by decide,
    by unfold State.receiving State.live; decide +kernel⟩

theorem witness_HolderContestsOrYields :
    (run21 .main).receiving ∧ (run21 .main).holder 21 ∧ (run21 .main).sid.uid.toNat ≤ uidS.toNat ∧
      ((1 : Byte) = 1 ∧ (uidS - 1).toNat < (run21 .main).sid.uid.toNat) ∧ (21 : Byte).toNat < 48 ∧ (0 : Byte) ≠ 1 ∧
      ((linked .quiet 96).receiving ∧ (linked .quiet 96).fc.link ≠ .active ∧ (linked .quiet 96).sid.own = some 21 ∧
        (linked .detached 0).receiving ∧ (linked .detached 0).fc.link ≠ .active ∧ (run21 .main).sid.own ≠ some 20) :=
  ⟨receiving_run21, holder_run21, by decide, by decide, by decide, by decide, ⟨rfl, rfl, rfl⟩, by decide, rfl, ⟨rfl, rfl, rfl⟩,
    by decide, by decide⟩

theorem witness_AskIsAnswered :
    let s : State := { run21 .main with tge := { Tge.reset with target := some (Rgb.all 9675), median := some (Rgb.all 10511) } }
    s.receiving ∧ s.holder 21 ∧ RawSetInv s ∧ s.lest.l = some (Rgb.all 12000) ∧
      s.tge.target = some (Rgb.all 9675) ∧ s.tge.median = some (Rgb.all 10511) ∧
      (6 < (7 : Byte).toNat ∧ (7 : Byte).toNat < 0x80) ∧ 0x8F < (0x90 : Byte).toNat ∧
      (mainPart (.statusClear 5 20) = some ⟨addrByte 5, 20, .ask 2⟩ ∧ (20 : Byte).toNat < 48 ∧
        (∀ o : Addr, s.sid.own = some o → (20 : Byte) ≠ addrByte o) ∧ (linked .quiet 96).receiving ∧
        (linked .quiet 96).fc.link ≠ .active) :=
  ⟨⟨rfl, rfl, rfl⟩, ⟨rfl, rfl, rfl, rfl⟩, by unfold RawSetInv; decide +kernel, rfl, rfl, rfl, by decide, by decide, rfl, by decide,
    fun o h => by cases h; decide, ⟨rfl, rfl, rfl⟩, by decide⟩
/-- R150: the main part that makes the station ACTIVE draws no answer from it. -/
theorem test_ask_at_the_end_of_quiet :
    let t := next (.capability 5 21) (linked .quiet 96)
    t.fc.link = .active ∧ t.slc.tx = none ∧ t.ptab.slots.get 5 = .heard 0 0 := by decide +kernel

/-- The receiving tile with the store as given. -/
def store (enable latch : Bool) (burn : Option Burn) (marks : Memory) : State :=
  { run21 .main with csto := { (run21 .main).csto with fixtureEnable := enable, latch := latch, burn := burn, array := marks } }
theorem witness_FixtureCommandsAreDecided :
    (∀ e l b m, (store e l b m).receiving ∧ (store e l b m).holder 21 ∧ (store e l b m).csto.fixtureEnable = e ∧
      (store e l b m).csto.latch = l ∧ (store e l b m).csto.burn = b) ∧
      ((linked .quiet 0).receiving ∧ (linked .quiet 0).sid.own = some 21 ∧ (linked .quiet 0).fc.link ≠ .active ∧
        mainPart (.arm 5 21 []) = some ⟨addrByte 5, addrByte 21, .fixture (1 :: [])⟩) ∧
      (mainPart (.arm 5 20 []) = some ⟨addrByte 5, 20, .fixture (1 :: [])⟩ ∧ (20 : Byte).toNat < 48 ∧
        ∀ o : Addr, (run21 .main).sid.own = some o → (20 : Byte) ≠ addrByte o) ∧
      (some (.lock 1 0) : Option Burn).isSome ∧ [119, 1, 2, 3, 4, 5, 6, 7, (8 : Byte)].length ≤ 9 ∧
      ¬127 < (119 : Byte).toNat + 8 ∧ 127 < (120 : Byte).toNat + 8 ∧
      (∃ k, k < 1 ∧ lockedByte ((store true true none [(127, 2)]).csto.array.read 127) ((95 : Byte).toNat + k) = true) ∧
      (¬∃ k, k < 1 ∧ lockedByte ((store true true none [(127, 2)]).csto.array.read 127) ((96 : Byte).toNat + k) = true) ∧
      (4 < (5 : Byte).toNat) ∧ 8 ≤ (8 : Byte).toNat :=
  ⟨fun _ _ _ _ => ⟨⟨rfl, rfl, rfl⟩, ⟨rfl, rfl, rfl, rfl⟩, rfl, rfl, rfl⟩, ⟨⟨rfl, rfl, rfl⟩, rfl, by decide, rfl⟩,
    ⟨rfl, by decide, fun o h => by cases h; decide⟩, rfl, by decide, by decide, by decide, ⟨0, by decide, by decide⟩, by decide, by decide, by decide⟩

theorem witness_BurningSetsBits :
    let s := store true true (some (.bytes 125 [1, 2] 0)) [(125, 4)]
    let e := store true true (some (.bytes 125 [1, 2] 1)) [(125, 4)]
    let l := store true true (some (.lock 7 0)) [(125, 4)]
    s.live ∧ s.csto.array.wf = true ∧ s.csto.burn = some (.bytes 125 [1, 2] 0) ∧ 0 + 1 < [1, (2 : Byte)].length ∧
      e.live ∧ e.csto.burn = some (.bytes 125 [1, 2] 1) ∧ 1 + 1 = [1, (2 : Byte)].length ∧ l.live ∧
      l.csto.burn = some (.lock 7 0) := ⟨rfl, rfl, rfl, by decide, rfl, rfl, rfl, rfl, rfl⟩

theorem witness_RepliesAreDelivered :
    (∀ b ∈ [Body.stake 0 0, .ask 0, .fixture [1], .muster 0], ∀ own ∈ [true, false],
      (winOf b own 0).slc.window = some { freshWindow ⟨9, 47, b⟩ own with seen := 0 } ∧
      (winOf b own 0).slc.phase = .window ∧ 0 < b.kind.blocksAllowed ∧ (winOf b own 0).slc.sendingReply = false ∧
      (winOf b own 0).csto.loaded.isSome) ∧
      15 < (Body.muster 0).kind.blocksAllowed ∧ 48 ≤ (48 : Byte).toNat ∧
      (let s := winOf (.muster 0) false 15
       let s : State := { s with slc := { s.slc with musterReply := .waiting } }
       s.awaitsBlock { freshWindow ⟨9, 47, .muster 0⟩ false with seen := 15 } ∧ s.sid.own = some 21) ∧
      (∀ b ∈ [Body.stake 0 0, .muster 0], let s := inWindow (freshWindow ⟨9, 47, b⟩ false) loading
        s.pins.resetHeld = false ∧ s.slc.phase = .window ∧ 0 < b.kind.blocksAllowed ∧ s.slc.sendingReply = false ∧
          s.csto.loaded = none ∧ s.slc.musterReply ≠ .waiting) :=
  ⟨by decide +kernel, by decide, by decide, ⟨⟨rfl, rfl, rfl, rfl, by decide, rfl⟩, rfl⟩, by decide +kernel⟩
/-- R80, R81: a muster byte of 48 is no sign of life; a waiting station tries again after it, but not in a full window. -/
theorem test_muster_byte_of_no_address :
    let s (n : Nat) : State :=
      { winOf (.muster 0) false n with slc := { (winOf (.muster 0) false n).slc with musterReply := .waiting } }
    (next (.musterByteReceived 48) (s 14)).slc.tx = some (.muster 21) ∧
      (next (.musterByteReceived 48) (s 15)).slc.tx = none ∧ (next (.musterByteReceived 48) (s 15)).slc.musterReply = .done := by
  decide +kernel

theorem witness_ReplyErrorStopsTheWindow :
    ((winOf (.muster 0) true 15).slc.window = some { freshWindow ⟨9, 47, .muster 0⟩ true with seen := 15 } ∧
      15 < (Body.muster 0).kind.blocksAllowed ∧ replyFindingFound .muster (.pastSize 9) = true) ∧
      ((winOf (.ask 0) true 0).slc.window = some { freshWindow ⟨9, 47, .ask 0⟩ true with seen := 0 } ∧
        (winOf (.ask 0) true 0).live ∧ 0 < (Body.ask 0).kind.blocksAllowed ∧ replyFindingFound .ask (.edge 4000) = true) ∧
      (sending (.answer [0, 0] none) (winOf (.ask 0) false 0)).slc.sendingReply = true ∧
      (let s := next .ownReplyComplete (sending (.muster 21) (winOf (.muster 0) false 15))
       s.live ∧ s.slc.phase = .window ∧ s.slc.window = some { freshWindow ⟨9, 47, .muster 0⟩ false with seen := 16 } ∧
         s.slc.tx = none ∧ s.slc.mark = .asSent ∧ 1 ≤ 16 ∧ 16 ≤ (Body.muster 0).kind.blocksAllowed) ∧
      (Body.ask 0).kind.blocksAllowed < 2 ∧
      (let w : Window := { freshWindow ⟨9, 47, .ask 0⟩ false with running := false }
       let s := inWindow w (run21 .window)
       s.live ∧ s.slc.phase = .window ∧ s.slc.window = some w ∧ w.running = false ∧ s.slc.tx = none) :=
  ⟨⟨rfl, by decide, by decide⟩, ⟨rfl, rfl, by decide, by decide⟩, rfl, by unfold State.live; decide +kernel, by decide, rfl, rfl,
    rfl, rfl, rfl⟩
/-- R51: a symbol error in a reply block, and a pulse in a block out of place, begin the recessive time anew. -/
theorem test_pulse_in_a_window :
    (next (.replyBlockError ⟨1, .symbol 2000⟩) (winOf (.ask 0) true 0)).slc.recessive = 0 ∧
      (next (.startOfFrame 0 1000) (winOf (.ask 0) true 1)).slc.recessive = 0 ∧
      (next (.musterByteReceived 4) (winOf (.muster 0) true 16)).slc.recessive = 2 := by decide +kernel

theorem witness_OwnReplyCompletes :
    (∀ x : Sending, ∀ b : Body, (sending x (winOf b false 0)).live ∧ (sending x (winOf b false 0)).slc.phase = .window ∧
      (sending x (winOf b false 0)).slc.tx = some x) ∧ 0 < (Body.ask 0).kind.blocksAllowed ∧
      (∀ f, Sending.contest 21 ≠ .main f) ∧ (∀ f, Sending.muster 21 ≠ .main f) ∧
      ∀ f, Sending.answer [0, 0] (some 0x0102) ≠ .main f :=
  ⟨fun _ _ => ⟨rfl, rfl, rfl⟩, by decide, fun _ h => (by cases h), fun _ h => (by cases h), fun _ h => (by cases h)⟩

theorem witness_EofClosesTheFrame :
    (winOf (.notice (Rgb.all 0) 0) false 0).live ∧ (winOf (.notice (Rgb.all 0) 0) false 0).slc.phase = .window ∧
      (winOf (.notice (Rgb.all 0) 0) false 0).slc.window =
        some { freshWindow ⟨9, 47, .notice (Rgb.all 0) 0⟩ false with seen := 0 } := ⟨rfl, rfl, rfl⟩
/-- The windows that decide nothing, with the views and the engine true; and one before loading ends. -/
theorem witness_windows_that_decide_nothing :
    (∀ b ∈ [Body.notice (Rgb.all 0) 0, .fixture [1], .ask 0, .muster 0], (freshWindow ⟨9, 47, b⟩ false).decides = false ∧
      (judged 4 (winOf b false 0)).slc.window = some (freshWindow ⟨9, 47, b⟩ false) ∧
      (judged 4 (winOf b false 0)).slc.phase = .window ∧ (judged 4 (winOf b false 0)).pins.resetHeld = false ∧
      (judged 4 (winOf b false 0)).slc.sendingMain = false) ∧
    (OwnFlagsInv (judged 4 (winOf (.ask 0) false 0)) ∧ EngineInv (judged 4 (winOf (.ask 0) false 0))) ∧
    (let s := inWindow (freshWindow ⟨63, 6, .stake 1 0⟩ false) loading
     s.pins.resetHeld = false ∧ s.slc.phase = .window ∧ s.slc.sendingMain = false ∧ s.csto.loaded = none ∧ s.tge.own = none ∧
       s.lest.ownFlags = s.flags) :=
  ⟨by decide +kernel,
    ⟨rfl, engineInv_of rfl rfl rfl rfl (by unfold ContributionsFollow; decide +kernel) (by decide +kernel)⟩,
    by decide +kernel⟩

/-- The holder of 21 at the window of its own HELD STAKE. -/
def ownHeld (first : FirstBlock) : State :=
  let s := inWindow { freshWindow ⟨63, 21, .stake uidS 1⟩ true with first := first } (run21 .window)
  { s with sid := { s.sid with reassert := true } }
/-- With every other slot taken; in another link state. -/
def crowded (s : State) : State := { s with ptab := { s.ptab with
  slots := mapVec (fun x => if x = .self then .self else .heard 0 0) s.ptab.slots } }
def inLink (l : LinkState) (s : State) : State := { s with fc := { s.fc with link := l, cut := l.isDetached } }
/-- With 47 candidates given up. -/
def lastTry (s : State) : State := { s with sid := { s.sid with attempts := 47 } }
/-- R93: the three ways a choice after a yield of 21 can go, from `s` at EOF. -/
def YieldWays (s : State) : Prop :=
  s.fc.link = .active ∧ s.slc.stake = .empty ∧ (next .frameEof s).ptab.firstFree 22 false = some 22 ∧
    (crowded s).fc.link = .active ∧ (next .frameEof (crowded s)).ptab.firstFree 22 false = none ∧
    (next .frameEof (crowded s)).sid.st = .unaddressed ∧ (inLink .detached s).fc.link ≠ .active ∧
    (next .frameEof (inLink .detached s)).sid.search = some (22, false)
theorem witness_yields_choose : YieldWays (ownHeld .delivered) := by unfold YieldWays; decide +kernel
theorem witness_ClaimIsDecidedAtEof :
    (∀ f : FirstBlock, (claimS f).live ∧ (claimS f).slc.phase = .window ∧
      (claimS f).slc.window = some { freshWindow ⟨63, addrByte 6, .stake uidS 0⟩ true with first := f } ∧
      (claimS f).csto.loaded = some pA ∧ (claimS f).sid.st = .claiming ∧ (claimS f).sid.candidate = some 6 ∧
      (claimS f).sid.decision = .none ∧ (claimS f).slc.stake = .empty ∧ (claimS f).slc.muster = .empty ∧
      (claimS f).fc.link = .active ∧ (claimS f).sid.attempts + 1 ≠ 48 ∧
      (claimS f).ptab.firstFree (addrAfter 6 1) false = some 7) ∧
    (∀ l f, (inLink l (claimS f)).fc.link = l ∧ (inLink l (claimS f)).sid = (claimS f).sid ∧
      (inLink l (claimS f)).slc = (claimS f).slc) ∧
    (ClaimEnds 6 (crowded (claimS .delivered)) ∧ ¬ClaimEnds 6 (claimS .delivered) ∧
      ClaimEnds 6 (lastTry (inLink .quiet (claimS .delivered))) ∧ ¬ClaimEnds 6 (inLink .quiet (crowded (claimS .delivered)))) ∧
    (inLink .quiet (run21 .window)).sid.st ≠ .claiming ∧ (inLink .quiet (run21 .window)).sid.own ≠ some 6 ∧
    ∀ f : FirstBlock, (ownHeld f).live ∧ (ownHeld f).slc.phase = .window ∧
      (ownHeld f).slc.window = some { freshWindow ⟨63, addrByte 21, .stake uidS 1⟩ true with first := f } ∧
      (ownHeld f).csto.loaded = some pA ∧ (ownHeld f).sid.decision = .none ∧ (ownHeld f).sid.st = .run ∧
      (ownHeld f).sid.own = some 21 ∧ (ownHeld f).sid.reassert = true := by
  refine ⟨fun f => ⟨rfl, rfl, ?_, rfl, rfl, rfl, rfl, rfl, rfl, rfl, by cases f <;> decide +kernel, by cases f <;> decide +kernel⟩,
    fun _ _ => ⟨rfl, rfl, rfl⟩, by unfold ClaimEnds; decide +kernel, by decide, by decide,
    fun f => ⟨rfl, rfl, ?_, rfl, rfl, rfl, rfl, rfl⟩⟩ <;> cases f <;> decide +kernel
/-- R93, R96: outside ACTIVE an uncontested claimant still takes its address; a contested one keeps the search start. -/
theorem test_claim_outside_active :
    (next .frameEof (inLink .quiet (claimS .nothing))).sid.own = some 6 ∧
      (next .frameEof (inLink .quiet (claimS .delivered))).sid.search = some (7, false) := by decide +kernel

/-- The tile at the window of another's STAKE for `c`. -/
def atStake (c : Addr) (first : FirstBlock) (s : State) : State :=
  inWindow { freshWindow ⟨63, addrByte c, .stake 1 0⟩ false with first := first } s
/-- The holder of 21 there; a claimant of 6; a station that has yielded 21 to it; one without an address. -/
def otherStake (c : Addr) (first : FirstBlock) : State := atStake c first (run21 .window)
def rival (first : FirstBlock) : State :=
  let s := atStake 6 first (tile .claiming none .window)
  { s with sid := { s.sid with candidate := some 6 }, slc := { s.slc with stake := ⟨some ⟨6, .fresh, uidS⟩, false, none⟩ } }
def yielded (link : LinkState) : State :=
  let s := atStake 21 .delivered (tile .claiming none .window)
  { s with sid := { s.sid with decision := .yielding, search := some (22, false) }, fc := { s.fc with link := link } }
def lost : State := atStake 6 .nothing { full .unaddressed (.heard 0 0) with slc := (tile .unaddressed none .window).slc }
theorem witness_UncontestedStakeFreesTheSlot :
    (∀ s ∈ [otherStake 20 .nothing, otherStake 21 .nothing, otherStake 20 .delivered, otherStake 21 .delivered,
        rival .nothing, rival .delivered, yielded .active, yielded .quiet, lost],
      s.slc.phase = .window ∧ s.pins.resetHeld = false ∧ s.csto.loaded.isSome ∧
      (s.sid.st = .load ↔ s.csto.loaded = none) ∧ (s.sid.own.isSome ↔ s.sid.st = .run) ∧
      ∀ a : Addr, s.ptab.slots.get a = .self ↔ s.sid.own = some a) ∧
    ((otherStake 21 .nothing).sid.decision = .none ∧ (otherStake 21 .nothing).sid.own = some 21) ∧
    (lost.sid.decision = .none ∧ lost.fc.link = .active ∧ lost.slc.stake = .empty ∧ lost.ptab.slots.get 6 ≠ .empty) ∧
    (∀ f ∈ [FirstBlock.nothing, .delivered], (rival f).sid.decision = .none ∧ (rival f).sid.candidate = some 6 ∧
      (rival f).fc.link = .active ∧ (rival f).slc.tx = none ∧
      (rival f).slc.stake = ⟨some ⟨6, .fresh, uidS⟩, false, none⟩ ∧ (rival f).sid.uid = uidS ∧
      (rival f).sid.attempts + 1 ≠ 48 ∧ (rival f).ptab.firstFree (addrAfter 6 1) false = some 7 ∧
      (rival f).ptab.slots.get 6 = .empty ∧ ¬ClaimEnds 6 (rival f) ∧ ¬ClaimEnds 6 (inLink .quiet (crowded (rival f))) ∧
      ClaimEnds 6 (crowded (rival f)) ∧ (crowded (rival f)).ptab.slots.get 6 ≠ .empty ∧
      ClaimEnds 6 (lastTry (inLink .detached (rival f))) ∧ (inLink .detached (rival f)).slc = (rival f).slc) ∧
    (let s := atStake 7 .nothing (rival .nothing)
     s.slc.window = some (freshWindow ⟨63, addrByte 7, .stake 1 0⟩ false) ∧ s.sid.candidate ≠ some 7 ∧ s.slc.tx = none) ∧
    ∀ l ∈ [LinkState.active, .quiet], (yielded l).sid.decision = .yielding ∧ (yielded l).sid.st = .claiming ∧
      (yielded l).sid.candidate = none ∧ (yielded l).sid.search = some (22, false) ∧ (yielded l).slc.stake = .empty ∧
      (yielded l).ptab.slots.get 21 = .empty ∧ (yielded l).fc.link = l ∧
      (yielded l).ptab.firstFree 22 false = some 22 := by unfold ClaimEnds; decide +kernel
/-- R93, R97: a claimant outside ACTIVE that hears a STAKE for its candidate withdraws its own and keeps the search start. -/
theorem test_rival_outside_active :
    let t := next .frameEof (inLink .quiet (rival .nothing))
    t.sid.search = some (7, false) ∧ t.sid.candidate = none ∧ t.slc.stake = .empty := by decide +kernel

theorem witness_others_stake_yields : YieldWays (otherStake 21 .nothing) := by unfold YieldWays; decide +kernel

/-- The own ASK of address 12 and the own MUSTER from 0, at their EOF. -/
def askEof (answer : Option (Bool × List Byte)) : State :=
  withSlot 12 (.heard 0 2) (inWindow { freshWindow ⟨21, 12, .ask 0⟩ true with answer := answer } (run21 .window))
def musterEof (n : Nat) : State :=
  let s := inWindow { freshWindow ⟨21, 62, .muster 0⟩ true with musterCount := n, lastMuster := some 46 } (run21 .window)
  { s with slc := { s.slc with musterRun := true } }
theorem witness_OwnWindowsAreDecidedAtEof :
    (∀ x : Option (Bool × List Byte), (askEof x).live ∧ (askEof x).slc.phase = .window ∧
      (askEof x).slc.window = some { freshWindow ⟨21, addrByte 12, .ask 0⟩ true with answer := x } ∧
      (askEof x).csto.loaded.isSome) ∧ (askEof none).ptab.slots.get 12 = .heard 0 2 ∧
      capabilityOf? [0, 0, 64, 0, 64, 0, 64, 1, 0] = some (Rgb.all 64, 1) ∧ capabilityOf? [1, 0, 64, 0, 64, 0, 64, 1, 0] = none ∧
      (∀ n : Nat, (musterEof n).live ∧ (musterEof n).slc.musterRun = true ∧ (musterEof n).slc.muster = .empty ∧
        (musterEof n).slc.tx = none) ∧ (46 : Byte).toNat + 1 ≤ 47 :=
  ⟨fun _ => ⟨rfl, rfl, rfl, rfl⟩, by decide +kernel, by decide, by decide, fun _ => ⟨rfl, rfl, rfl, rfl⟩, by decide⟩

/-- The tile in RUN with its values reported, `n` ticks after that report. -/
def reported (n : Nat) (flags : Byte) : State :=
  { run21 .ready with
    slc := { (run21 .ready).slc with spacing := n }
    lest := { (run21 .ready).lest with lRep := some (Rgb.all 12000), flagsRep := some flags }
    tge := { (run21 .ready).tge with own := some ⟨Rgb.all 12000, 0⟩ } }
theorem witness_DueReportsFillOrDefer :
    (let s (n : Nat) : State :=
      { run21 .ready with slc := { (run21 .ready).slc with reportTimer := some 0, spacing := n, deferred := true } }
     ∀ n : Nat, (s n).live ∧ (s n).slc.notice = .empty ∧ (s n).sid.st = .run ∧ (s n).slc.reportTimer = some 0 ∧
       (s n).slc.spacing = n ∧ (s n).slc.deferred = true) ∧
    (∀ n fl, (reported n fl).live ∧ (reported n fl).slc.notice = .empty ∧ (reported n fl).ftb.syncTimer = some 40000 ∧
      (reported n fl).csto.loaded = some pA ∧ (reported n fl).sid.st = .run ∧ (reported n fl).ftb.nosync = false ∧
      (reported n fl).lest.l = some (Rgb.all 12000) ∧
      (reported n fl).tge.own = some ⟨Rgb.all 12000, (reported n fl).lest.ownFlags⟩ ∧
      (reported n fl).lest.lRep = some (Rgb.all 12000) ∧ (reported n fl).lest.flagsRep = some fl) ∧
    (let s : State := { reported 3 0 with slc := { (reported 3 0).slc with deferred := true } }
     s.live ∧ s.slc.notice = .empty ∧ s.slc.deferred = true ∧ 3 ≤ s.slc.spacing ∧ s.ftb.syncTimer = some 40000 ∧ OwnFlagsInv s ∧
       (next .substituteTick s).lest.significant = true ∧ (next .substituteTick s).slc.notice.content = some () ∧
       (next .substituteTick s).slc.deferred = true) ∧
    OwnFlagsInv (reported 3 0) ∧ (next .substituteTick (reported 3 0)).lest.significant = true ∧
    (next .substituteTick (reported 2 0x80)).lest.significant = false ∧
    ((⟨some (), false, none⟩ : OutSlot Unit).content.isSome) :=
  ⟨fun _ => ⟨rfl, rfl, rfl, rfl, rfl, rfl⟩, fun _ _ => ⟨rfl, rfl, rfl, rfl, rfl, rfl, rfl, rfl, rfl, rfl⟩,
    by unfold OwnFlagsInv State.live; decide +kernel, by unfold OwnFlagsInv; decide +kernel, by decide +kernel, by decide +kernel,
    rfl⟩

/-- The evaluation in RUN, from a state whose engine follows its inputs. -/
theorem witness_requests_reach_the_slot :
    let s := judged 4 (counting .r false false false)
    let t := next (.countArrival (some 18700)) s
    EngineInv s ∧ s.csto.loaded.isSome ∧ t.sid.st = .run ∧ t.lest.l ≠ s.lest.l ∧ t.lest.significant = true := by
  exact ⟨engineInv_of (p := pA) (l := Rgb.all 12000) (by decide +kernel) (by decide +kernel) (by decide +kernel) (by decide +kernel)
    (by unfold ContributionsFollow; decide +kernel) (by decide +kernel), by decide +kernel, by decide +kernel, by decide +kernel,
    by decide +kernel⟩

/-- The tile at the end of its listening, every slot as given. -/
def listened (x : PeerSlot) (link : LinkState) : State :=
  let s := tile .listen none .ready
  { s with sid := { s.sid with listen := some 60 }, ptab := { s.ptab with slots := Vector.replicate 48 x },
           fc := { s.fc with link := link } }
theorem witness_ListenEndStakesFromTheSeed :
    (∀ x l, (listened x l).live ∧ (listened x l).csto.loaded = some pA ∧ (listened x l).sid.st = .listen ∧
      (listened x l).sid.listen = some 60 ∧ (listened x l).slc.stake = .empty ∧ (listened x l).fc.link = l) ∧
      2 * pA.period ≤ 60 ∧ (listened .empty .active).ptab.slots.get (addrAfter (seedOf uidS) 0) = .empty ∧
      (∀ a : Addr, (listened (.heard 0 0) .active).ptab.slots.get a ≠ .empty) ∧
      (let s := withSlot 5 .empty (listened (.heard 0 0) .active)
       s.ptab.slots.get (addrAfter (seedOf uidS) 47) = .empty ∧
         ∀ j < 47, s.ptab.slots.get (addrAfter (seedOf uidS) j) ≠ .empty) :=
  ⟨fun _ _ => ⟨rfl, rfl, rfl, rfl, rfl, rfl⟩, by decide, by decide +kernel, by decide +kernel, by decide +kernel⟩

theorem witness_AgedSlotsGoStaleAndEmpty :
    (run21 .ready).live ∧ (run21 .ready).csto.loaded = some pA ∧ (run21 .ready).lest.l.isSome ∧
      pA.staleLimit * pA.period ≤ 120 ∧ ¬pA.staleLimit * pA.period ≤ 119 ∧ pA.goneLimit * pA.period ≤ 360 ∧
      ¬pA.goneLimit * pA.period ≤ 359 ∧ (run21 .ready).sid.st ≠ .unaddressed ∧
      (let s := full .unaddressed (.heard 360 0)
       s.pins.resetHeld = false ∧ s.csto.loaded = some pA ∧ s.sid.st = .unaddressed ∧ s.fc.link = .active ∧
         s.slc.stake = .empty ∧ (next .slotRemoval s).ptab.slots.get 5 = .empty ∧ s.ptab.slots.get 5 ≠ .empty) ∧
      (let s := emptiedOnTheWay (withSlot 5 .empty (full .unaddressed (.heard 0 0)))
       s.pins.resetHeld = false ∧ s.csto.loaded = some pA ∧ s.sid.st = .unaddressed ∧ s.fc.link = .active ∧
         s.slc.stake = .empty ∧ s.sid.emptied = true) ∧
      (run21 .ready).tge.recompute pA = (run21 .ready).tge :=
  ⟨rfl, rfl, rfl, by decide, by decide, by decide, by decide, by decide +kernel, by decide +kernel, by decide +kernel, rfl⟩

/-- Without an address and outside ACTIVE, where a slot turns EMPTY: at a tick, with a hand-off on its way, at a STAKE's EOF. -/
theorem witness_unaddressed_outside_active :
    (∀ s ∈ [inLink .quiet (full .unaddressed (.heard 359 0)), emptiedOnTheWay (inLink .detached (full .unaddressed (.heard 0 0))),
        inLink .quiet lost],
      s.pins.resetHeld = false ∧ s.csto.loaded = some pA ∧ s.sid.st = .unaddressed ∧ s.fc.link ≠ .active ∧ s.slc.stake = .empty) ∧
    (inLink .quiet lost).ptab.slots.get 6 ≠ .empty ∧ (inLink .quiet lost).sid.decision = .none := by decide +kernel
/-- R93, R105: the claim that starts outside ACTIVE waits in CLAIMING with the seed as its search start. -/
theorem test_claim_from_seed_waits :
    ∀ t ∈ [next .slotRemoval (inLink .quiet (full .unaddressed (.heard 360 0))), next .frameEof (inLink .detached lost)],
      t.sid.st = .claiming ∧ t.sid.candidate = none ∧ t.sid.search = some (6, true) ∧ t.slc.stake = .empty := by decide +kernel

/-- A claimant in link state `l` whose choice waits, from 22 over the 47 others. -/
def choiceWaits (l : LinkState) (x : PeerSlot) : State :=
  let s := full .claiming x
  { s with fc := { s.fc with link := l, cut := l.isDetached, recoveryTimer := if l = .detached then some 1000000 else none },
           sid := { s.sid with search := some (22, false) }, ptab := { s.ptab with heldLink := l } }
theorem witness_SilenceClearsTheCounts :
    (run21 .ready).live ∧ (run21 .ready).fc.silenceTimer = some 500000 ∧ (run21 .ready).fc.link ≠ .quiet ∧
      (∀ x : PeerSlot, (choiceWaits .quiet x).live ∧ (choiceWaits .quiet x).fc.silenceTimer = some 500000 ∧
        (choiceWaits .quiet x).fc.link = .quiet ∧ (choiceWaits .quiet x).sid.st = .claiming ∧
        (choiceWaits .quiet x).sid.candidate = none ∧ (choiceWaits .quiet x).sid.search = some (22, false) ∧
        (choiceWaits .quiet x).sid.decision ≠ .yielding ∧ (choiceWaits .quiet x).slc.stake = .empty) ∧
      (choiceWaits .quiet .empty).ptab.firstFree 22 false = some 22 ∧
      (choiceWaits .quiet (.heard 0 0)).ptab.firstFree 22 false = none ∧ (linked .quiet 0).sid.st ≠ .claiming :=
  ⟨rfl, rfl, by decide, fun _ => ⟨rfl, rfl, rfl, rfl, rfl, rfl, (fun h => Decision.noConfusion h), rfl⟩, by decide +kernel, by decide +kernel, by decide⟩
/-- R93, R153: the choice that has waited is made when QUIET ends. -/
theorem test_waiting_choice_at_silence :
    (next .silenceExpiry (choiceWaits .quiet .empty)).slc.stake.content = some ⟨22, .fresh, uidS⟩ ∧
      (next .silenceExpiry (choiceWaits .quiet (.heard 0 0))).sid.st = .unaddressed := by decide +kernel

/-- The tile with a detach history, the cut closed, and after a detach. -/
def detached (h : List Nat) : State := { run21 .ready with fc := { (run21 .ready).fc with history := h } }
theorem witness_StuckStageIsCutOffAndRecovers :
    (∀ h : List Nat, (detached h).live ∧ (detached h).fc.cut = false ∧ (detached h).fc.history = h ∧
      (detached h).fc.link = .active) ∧ 16 < 17 ∧ (5 ≤ 60000005 ∧ 60000005 ≤ 5 + 60000000) ∧ 5 + 60000000 < 60000006 ∧
      (next (.detach 0 17) (detached [])).live ∧ (next (.detach 0 17) (detached [])).fc.link = .detached ∧
      (next (.detach 0 17) (detached [])).fc.recoveryTimer = some 1000000 ∧
      (next (.detach 0 17) (detached [])).fc.historyTimer = some 60000000 ∧
      (let s := choiceWaits .detached .empty
       s.live ∧ s.fc.link = .detached ∧ s.fc.recoveryTimer = some 1000000 ∧ s.sid.st = .claiming ∧ s.sid.candidate = none ∧
         s.sid.search = some (22, false) ∧ s.sid.decision ≠ .yielding ∧ s.slc.stake = .empty ∧
         s.ptab.firstFree 22 false = some 22) ∧
      (let s := withdrawnStake .main
       s.live ∧ s.fc.cut = false ∧ s.fc.link = .active ∧ s.fc.history = [] ∧ s.slc.tx.isSome) ∧
      ((linked .quiet 0).live ∧ (linked .quiet 0).fc.cut = false ∧ (linked .quiet 0).fc.link ≠ .active) :=
  ⟨fun _ => ⟨rfl, rfl, rfl, rfl⟩, by decide, by decide, by decide, by unfold State.live; decide +kernel, by decide +kernel,
    by decide +kernel, by decide +kernel,
    ⟨rfl, rfl, rfl, rfl, rfl, rfl, by decide, rfl, by decide +kernel⟩, ⟨rfl, rfl, rfl, rfl, rfl⟩, ⟨rfl, rfl, by decide⟩⟩
/-- R74, R154: a detach cuts the frame off; its withdrawn content gives way to the one held for after it. -/
theorem test_detach_keeps_the_slots :
    let t := next (.detach 0 17) (withdrawnStake .main)
    t.slc.tx = none ∧ t.slc.stake = ⟨some ⟨7, .fresh, uidS⟩, false, none⟩ := by decide +kernel

theorem witness_StuckLineStopsReception :
    (run21 .main).live ∧ 1000 < 1001 ∧ (run21 .main).slc.driver = .released ∧ (run21 .main).fc.recCount ≤ 255 ∧
      (next (.busStuckSet 1001) (run21 .main)).fc.busStuck = true ∧ (next (.busStuckSet 1001) (run21 .main)).live :=
  ⟨rfl, by decide, rfl, by decide, by decide +kernel, by unfold State.live; decide +kernel⟩

/-- A running burn of the last writable byte, behind a lock mark of the CHAR section. -/
def burningState : State :=
  { store true true (some (.bytes 126 [1] 0)) [(127, 1)] with pending := [.burnByteComplete 0] }
theorem witness_StoreInvariantKept : StoreInv burningState ∧ step burningState = .next (next (.burnByteComplete 0)
    (burningState.setPending [])) := by
  refine ⟨⟨by decide, by decide, by decide, ?_⟩, rfl⟩
  decide

/-- The tile with a command in its queue. -/
def queued (c : Instr) : State := { run21 .ready with pending := [c] }
theorem witness_ViewsStayTrue :
    RawSetInv (queued .substituteTick) ∧ OwnFlagsInv (queued .substituteTick) ∧ FaultLineInv (queued .substituteTick) := by
  unfold RawSetInv OwnFlagsInv FaultLineInv
  decide +kernel

/-- The part right after the end of loading, with a command in its queue. -/
def loadedPart (c : Instr) : State := { next .endOfLoading loading with pending := [c] }
theorem witness_ViewsStayTrue_engine : AddressInv (loadedPart .pollTimerExpiry) ∧ EngineInv (loadedPart .pollTimerExpiry) ∧
    (loadedPart .pollTimerExpiry).csto.loaded.isSome ∧ (loadedPart .pollTimerExpiry).tge.ceiled = some (Rgb.all 3840) := by
  exact ⟨by unfold AddressInv; decide +kernel, engineInv_of (p := loadParams []) (l := Rgb.all 8192) (by decide +kernel)
    (by decide +kernel) (by decide +kernel) (by decide +kernel) (by unfold ContributionsFollow; decide +kernel) (by decide +kernel),
    by decide +kernel, by decide +kernel⟩

/-- The part at the end of its loading: the engine holds no own entry yet. -/
theorem witness_ViewsStayTrue_loading :
    AddressInv { loading with pending := [.endOfLoading] } ∧ EngineInv { loading with pending := [.endOfLoading] } :=
  ⟨by unfold AddressInv; decide +kernel, fun _ => rfl, fun _ h => (by cases h)⟩

theorem witness_AddressInvariantKept : AddressInv (queued .listenEnd) := by
  unfold AddressInv
  decide +kernel

theorem witness_SendInvariantKept :
    SendInv { sending noticeSent (run21 .ready) with pending := [.bitError 0 8999] } ∧
      SendInv { sending noticeSent (run21 .main) with pending := [] } := by
  refine ⟨⟨fun x _ => ⟨rfl, .inl rfl⟩, ?_⟩, ⟨fun x _ => ⟨rfl, .inl rfl⟩, ?_⟩⟩ <;> decide +kernel

theorem inRange_pA : pA.inRange := by
  unfold Params.inRange Params.settingsInRange CharChannel.inRange
  decide +kernel

theorem paramsInRange_queued (c : Instr) : (queued c).paramsInRange := fun p h => by
  cases h
  exact inRange_pA

theorem witness_TemperatureInvariantKept : TemperatureInv (queued (.fsyncEdge 4000)) :=
  ⟨paramsInRange_queued _, by decide +kernel⟩

theorem witness_EstimateInvariantKept : EstimateInv (queued .senseWindowOpen) := by
  refine ⟨paramsInRange_queued _, by unfold rgbWithin; decide +kernel, fun f h => ?_, fun l h => ?_⟩
  · cases h
    unfold rgbWithin
    decide
  · cases h
    unfold rgbWithin
    decide

theorem witness_GainInvariantKept : GainInv (queued (.fsyncEdge 4000)) :=
  ⟨paramsInRange_queued _, by unfold rgbWithin; decide +kernel, fun _ h => (by cases h)⟩

theorem witness_SenseDriveInvariantKept : SenseDriveInv { due .r with pending := [.senseWindowOpen] } :=
  ⟨fun h => (by cases h), rfl⟩

theorem witness_AgesAndCountsKept :
    AgesInv { withSlot 12 (.fresh (Rgb.all 64) 0 119 119) (run21 .ready) with pending := [.fsyncEdge 4000] } ∧
      CountsInv (queued (.fsyncEdge 4000)) ∧
      (let s : State := { run21 .main with pending := [.musterReceived 9 0] }
       let t := next (.musterReceived 9 0) (s.setPending [])
       SendInv s ∧ AskInv s ∧ t.ptab.askTarget = some 9 ∧ t.slc.ask.next = some ⟨9, 0x00⟩) := by
  refine ⟨fun a => ?_, by unfold CountsInv; decide +kernel, ⟨fun x h => (by cases h), ?_⟩, ?_, by decide +kernel⟩
  · by_cases h : a = 12
    · subst h
      simp [withSlot, PeerSlot.agesOk]
    · simp only [withSlot]
      rw [Ptab.update_get_ne _ _ h]
      simp only [run21, tile, mapVec_get]
      split <;> simp [PeerSlot.agesOk]
  · decide +kernel
  · refine ⟨rfl, rfl, fun h => (by cases h), fun h => (by cases h), rfl, fun _ => ?_⟩
    rw [if_pos ⟨rfl, rfl⟩]
    refine ⟨trivial, fun b _ h tries hb => ?_⟩
    simp only [run21, tile, mapVec_get] at hb
    split at hb <;> cases hb

theorem witness_ArrayOnlyGainsBits :
    StoreInv burningState ∧ lockedByte (burningState.csto.array.read 127) 79 = true ∧
      lockedByte (burningState.csto.array.read 127) 80 = false :=
  ⟨witness_StoreInvariantKept.1, by decide, by decide⟩

theorem witness_GainsMoveByTheSlewStep :
    let s : State := { queued (.fsyncEdge 4000) with tge := { Tge.reset with ceiled := some (Rgb.all 2048), crit := true } }
    let t := next (.fsyncEdge 4000) (s.setPending [])
    s.csto.loaded = some pA ∧ t.csto.loaded = some pA ∧ t.tge.applied = Rgb.all 3808 := by decide +kernel
/-- R127, R140: a recompute, here at a NOTICE, leaves the applied gains to the next tick. -/
theorem test_notice_leaves_the_gains :
    let s : State := { run21 .main with tge := { (run21 .main).tge with own := some ⟨Rgb.all 12000, 0⟩ } }
    let t := next (.noticeReceived 10 (Rgb.all 6000) 0) s
    t.tge.ceiled = some (Rgb.all 2560) ∧ t.tge.applied = s.tge.applied ∧ t.drvp = s.drvp := by decide +kernel

theorem witness_LatchedEntriesPersist :
    let s : State := { run21 .ready with evu := { (run21 .ready).evu with latched := 0x8000, marks := 0x0200 } }
    (exec .frameEof s = .next (next .frameEof s) ∧ Instr.frameEof ≠ .reset ∧ Instr.frameEof ≠ .ownReplyComplete ∧
      s.evu.latched.getLsbD 15 = true ∧ s.evu.marks.getLsbD 9 = true ∧
      ∀ src tgt, mainPart .frameEof ≠ some ⟨src, tgt, .ask 0x02⟩) ∧
    (RawSetInv s ∧ s.evu.raw.getLsbD 10 = false ∧ (next (.detach 0 17) s).evu.raw.getLsbD 10 = true) ∧
    (loading.csto.loaded = none ∧ (next .endOfLoading loading).csto.loaded = some (loadParams []) ∧
      (loadParams []).setDefault = true) ∧
    ((run21 .main).sid.own.isSome ∧ (next (.stakeReceived 63 21 (uidS - 1) 1) (run21 .main)).sid.own = none) ∧
    ((run21 .main).sid.reassert = false ∧ (next (.musterReceived 21 0) (run21 .main)).sid.reassert = true ∧
      ∀ src tgt, mainPart (.musterReceived 21 0) ≠ some ⟨src, tgt, .ask 0x02⟩) :=
  ⟨⟨rfl, by decide, by decide, by decide, by decide, fun _ _ h => (by cases h)⟩,
    ⟨by unfold RawSetInv; decide +kernel, by decide, by decide +kernel⟩, ⟨rfl, by decide +kernel, by decide +kernel⟩,
    ⟨rfl, by decide +kernel⟩, ⟨rfl, by decide +kernel, fun _ _ h => (by cases h)⟩⟩
/-- R174: a condition that rises latches with its mark; R177: the capture clears the mark of the DUP_ADDRESS it carries (log 12). -/
theorem test_arisals_are_marked :
    (next (.detach 0 17) (run21 .ready)).evu.latched = 0x0400 ∧ (next (.detach 0 17) (run21 .ready)).evu.marks = 0x0400 ∧
      (next (.musterReceived 21 0) (run21 .main)).evu.marks = 0x8000 ∧
      (next (.statusClear 21 21) (run21 .main)).evu.latched = 0x8000 ∧
      (next (.statusClear 21 21) (run21 .main)).evu.marks = 0 := by decide +kernel

theorem witness_OwnAddressComesFromTheClaim :
    (next .frameEof (claimS .nothing)).sid.own = some 6 ∧ (claimS .nothing).sid.own ≠ some 6 ∧
      ((claimS .nothing).sid.st = .load ↔ (claimS .nothing).csto.loaded = none) ∧
      ((claimS .nothing).sid.own.isSome ↔ (claimS .nothing).sid.st = .run) ∧
      (∀ a : Addr, (claimS .nothing).ptab.slots.get a = .self ↔ (claimS .nothing).sid.own = some a) ∧
      (∀ c ∈ [Instr.reset, .stakeReceived 63 21 (uidS - 1) 1], (next c (run21 .main)).sid.own = none) ∧
      (run21 .main).sid.own = some 21 ∧ (next .frameEof (ownHeld .delivered)).sid.own = none ∧
      (ownHeld .delivered).sid.own = some 21 ∧
      (let s := { (ownHeld .delivered) with fc := { (ownHeld .delivered).fc with busStuck := true } }
       let s : State := { s with slc := { s.slc with phase := .hunt } }
       (next .busStuckClear s).sid.own = none) := by decide +kernel

theorem witness_OnlyResetUndoesLatchAndLoad :
    let s : State := { run21 .ready with fc := { (run21 .ready).fc with link := .latched, cut := true } }
    CountsInv s ∧ exec .silenceExpiry s = .next (next .silenceExpiry s) ∧ Instr.silenceExpiry ≠ .reset ∧
      s.fc.link = .latched ∧ s.csto.loaded = some pA :=
  ⟨by unfold CountsInv; decide +kernel, rfl, by decide, rfl, rfl⟩

end Sys2Proof.Tests
end

section
/-! SUPPORT. What `TemperatureInv` reads, which commands move it, and that the loaded copy and TMON's operations stay in
range: O50. -/

namespace Sys2Proof.Machine

/-! ### Commands that leave the temperature monitor and the loaded copy -/

/-- TMON's block and the loaded copy are the same in both: all that `TemperatureInv` reads. -/
def KeepsTemperature (s t : State) : Prop := t.tmon = s.tmon ∧ t.csto.loaded = s.csto.loaded

theorem KeepsTemperature.refl (s : State) : KeepsTemperature s s := ⟨rfl, rfl⟩

theorem keepsTemperature_ite {c : Prop} [Decidable c] {s a b : State} (ha : KeepsTemperature s a) (hb : KeepsTemperature s b) :
    KeepsTemperature s (if c then a else b) := by
  split
  · exact ha
  · exact hb

/-- What holds of a live command's effect, and of the state left as it is, holds of every state the gate lets out. -/
theorem whenLive_next {P : State → Prop} {s a t : State} (h : whenLive s a = .next t) (hs : P s) (ha : P a) : P t := by
  have e := Host.Outcome.next.inj h
  subst e
  split
  · exact hs
  · exact ha

theorem keepsTemperature_whenLive {s a t : State} (h : whenLive s a = .next t) (ha : KeepsTemperature s a) :
    KeepsTemperature s t := whenLive_next h (.refl s) ha

/-- The FIXTURE commands leave the loaded copy: it changes at the end of loading alone (R164). -/
@[simp] theorem Csto.fixture_loaded (c : Csto) (code : Byte) (args : List Byte) : (c.fixture code args).1.loaded = c.loaded := by
  dsimp only [Csto.fixture, Csto.burnCommand, Csto.lockCommand]
  repeat' split
  all_goals rfl

@[simp] theorem Csto.burnByte_loaded (c : Csto) (missed : Byte) : (c.burnByte missed).loaded = c.loaded := by
  dsimp only [Csto.burnByte]
  repeat' split
  all_goals rfl

@[simp] theorem Csto.lockByte_loaded (c : Csto) : c.lockByte.loaded = c.loaded := by
  unfold Csto.lockByte
  split
  · rfl
  · rfl

@[simp] theorem fixtureAtEob_loaded (tgt code : Byte) (args : List Byte) (link : LinkState) (s : State) :
    (fixtureAtEob tgt code args link s).csto.loaded = s.csto.loaded := by
  dsimp only [fixtureAtEob]
  repeat' split
  all_goals simp

@[simp] theorem askReceived_frame (src tgt selector : Byte) (s : State) :
    (askReceived src tgt selector s).tmon = s.tmon ∧ (askReceived src tgt selector s).csto = s.csto := by
  simp [askReceived]

/-- A FIXTURE moves the store's array, burn and latch, and no loaded value. -/
theorem keepsTemperature_fixtureReceived (src tgt code : Byte) (args : List Byte) (s : State) :
    KeepsTemperature s (fixtureReceived src tgt code args s) := by
  refine ⟨by simp [fixtureReceived], ?_⟩
  dsimp only [fixtureReceived, frameReceived]
  repeat' split
  all_goals simp

/-- The five commands at which TMON or the loaded copy can change. -/
def movesTemperature : Instr → Bool
  | .reset | .resetRelease _ _ | .endOfLoading | .pollTimerExpiry | .temperatureReadCompletion _ => true
  | _ => false

theorem exec_keepsTemperature {c : Instr} {s t : State} (hc : movesTemperature c = false) (h : exec c s = .next t) :
    KeepsTemperature s t := by
  cases c with
  | reset | resetRelease | endOfLoading | pollTimerExpiry | temperatureReadCompletion => cases hc
  | arm | disarm | burn | lock | unknownCommand =>
    exact keepsTemperature_whenLive h (keepsTemperature_fixtureReceived _ _ _ _ s)
  | receiverReady | arbitrationLoss | bitError | sendSymbolError | malformedFrame | reportTimerDue | spacingCountFull =>
    exact keepsTemperature_whenLive h (keepsTemperature_ite (by simp [KeepsTemperature]) (.refl s))
  | _ => exact keepsTemperature_whenLive h (by simp [KeepsTemperature])


/-! ### The loaded copy is in range -/

theorem charChannelAt_inRange {m : Memory} {base : Nat} (h : (charChannelAt m base).valid = true) :
    (charChannelAt m base).inRange := by
  simp only [CharChannel.valid, Bool.and_eq_true, decide_eq_true_eq, bne_iff_ne, List.all_eq_true] at h
  obtain ⟨⟨⟨hl, hs⟩, hc⟩, -⟩ := h
  exact ⟨hl, hs, by simp [charChannelAt], hc⟩

theorem nominalChannel_inRange : nominalChannel.inRange := by
  refine ⟨by decide, by decide, rfl, fun p hp => ?_⟩
  obtain rfl := List.eq_of_mem_replicate hp
  decide

/-- The loaded channel blocks are in range, from the array or nominal (R162). -/
theorem loadChars_inRange (m : Memory) :
    (loadChars m).r.inRange ∧ (loadChars m).g.inRange ∧ (loadChars m).b.inRange := by
  unfold loadChars
  split
  next h =>
    simp only [charValid, Bool.and_eq_true] at h
    obtain ⟨⟨⟨-, hr⟩, hg⟩, hb⟩ := h
    exact ⟨charChannelAt_inRange hr, charChannelAt_inRange hg, charChannelAt_inRange hb⟩
  next => exact ⟨nominalChannel_inRange, nominalChannel_inRange, nominalChannel_inRange⟩

theorem clampNat_within {lo hi : Nat} (x : Nat) (h : lo ≤ hi) : lo ≤ clampNat lo hi x ∧ clampNat lo hi x ≤ hi := by
  simp only [clampNat]
  omega

theorem defaultParams_settingsInRange (chars : Rgb CharChannel) (uncal : Bool) :
    (defaultParams chars uncal).settingsInRange := by
  simp [defaultParams, Params.settingsInRange]

/-- Stored settings, clamped and then related, are in range (R163): the relations keep the ranges of gone limit and T_crit. -/
theorem relate_storedParams_settingsInRange (m : Memory) (chars : Rgb CharChannel) (uncal : Bool) :
    (storedParams m chars uncal).relate.settingsInRange := by
  have hs := clampNat_within (lo := 2) (hi := 15) (m.read 81).toNat (by decide)
  have hg := clampNat_within (lo := 3) (hi := 60) (m.read 82).toNat (by decide)
  have hh := clampNat_within (lo := 40) (hi := 70) (m.read 87).toNat (by decide)
  have hc := clampNat_within (lo := 60) (hi := 90) (m.read 88).toNat (by decide)
  dsimp only [storedParams, Params.relate, Params.settingsInRange]
  refine ⟨clampNat_within _ (by decide), hs, ?_, (clampNat_within _ (by decide)).2, clampNat_within _ (by decide),
    clampNat_within _ (by decide), clampNat_within _ (by decide), hh, ?_, clampNat_within _ (by decide),
    clampNat_within _ (by decide), ?_, ?_⟩
  all_goals
    split
    · omega
    · omega

/-- Whatever the array holds, every loaded value lies in its range (R162, R163). -/
theorem loadParams_inRange (m : Memory) : (loadParams m).inRange := by
  dsimp only [loadParams]
  split
  · exact ⟨relate_storedParams_settingsInRange m _ _, loadChars_inRange m⟩
  · exact ⟨defaultParams_settingsInRange _ _, loadChars_inRange m⟩

/-! ### The temperature monitor's own operations keep its ranges -/

/-- What `TemperatureInv` says of TMON's block alone (R8 to R11). -/
def Tmon.inRange (m : Tmon) : Prop :=
  (-640 ≤ m.tf ∧ m.tf ≤ 2000) ∧ (m.crit = true → m.hot = true) ∧ m.failRun ≤ 9 ∧ m.validRun ≤ 4

theorem temperatureInv_iff (s : State) : TemperatureInv s ↔ s.paramsInRange ∧ s.tmon.inRange := Iff.rfl

theorem Tmon.reset_inRange : Tmon.reset.inRange := by simp [Tmon.reset, Tmon.inRange]

/-- A reading is a valid sample exactly in −640..2000 (R7). -/
theorem validSample?_eq_some {o : Option Int} {x : Int} : validSample? o = some x ↔ o = some x ∧ -640 ≤ x ∧ x ≤ 2000 := by
  cases o with
  | none => simp [validSample?]
  | some y =>
    simp only [validSample?, Option.some.injEq]
    split
    next h =>
      constructor
      · rintro ⟨⟩
        exact ⟨rfl, h⟩
      · exact fun hx => congrArg some hx.1
    next h =>
      refine iff_of_false (by simp) ?_
      rintro ⟨rfl, hx⟩
      exact h hx

/-- The filter moves T_f to a value between the old one and the sample (R8). -/
theorem filterStep_between (tf x : Int) : min tf x ≤ filterStep tf x ∧ filterStep tf x ≤ max tf x := by
  simp only [filterStep]
  split
  · omega
  · rcases Int.le_total tf x with h | h
    · have := Int.tdiv_nonneg (Int.sub_nonneg.mpr h) (show (0 : Int) ≤ 8 by decide)
      have := Int.tdiv_le_self (b := 8) (Int.sub_nonneg.mpr h)
      omega
    · have e : (x - tf).tdiv 8 = -((tf - x).tdiv 8) := by rw [← Int.neg_tdiv, Int.neg_sub]
      have := Int.tdiv_nonneg (Int.sub_nonneg.mpr h) (show (0 : Int) ≤ 8 by decide)
      have := Int.tdiv_le_self (b := 8) (Int.sub_nonneg.mpr h)
      omega

theorem Tmon.failure_inRange {m : Tmon} (h : m.inRange) : m.failure.inRange := by
  obtain ⟨ht, hc, hf, hv⟩ := h
  unfold Tmon.failure
  split
  · exact ⟨ht, hc, hf, Nat.zero_le _⟩
  · split
    · exact ⟨ht, hc, Nat.zero_le _, Nat.zero_le _⟩
    next hn => exact ⟨ht, hc, by dsimp only; omega, hv⟩

theorem Tmon.valid_inRange {m : Tmon} {x : Int} (h : m.inRange) (hx : -640 ≤ x ∧ x ≤ 2000) : (m.valid x).inRange := by
  obtain ⟨ht, hc, hf, hv⟩ := h
  unfold Tmon.valid
  split
  · split
    · exact ⟨hx, hc, hf, Nat.zero_le _⟩
    next hn => exact ⟨ht, hc, hf, by dsimp only; omega⟩
  · have := filterStep_between m.tf x
    exact ⟨by dsimp only; omega, hc, Nat.zero_le _, hv⟩

/-- A test of the thresholds leaves everything but HOT and CRIT, and these as R11 says. -/
theorem Tmon.test_tested (m : Tmon) (p : Params) :
    m.test p = { m with hot := (m.test p).hot, crit := (m.test p).crit } ∧ TestedAs p m (m.test p) := by
  refine ⟨rfl, ?_, ?_⟩
  · simp only [Tmon.test]
    split
    next h => simp [h]
    next h =>
      split
      next h' => simp; omega
      next h' => simp [h]; omega
  · simp only [Tmon.test]
    split
    next h => simp [h]
    next h =>
      split
      next h' => simp; omega
      next h' => simp [h]; omega

/-- The thresholds' relation keeps HOT under CRIT: where CRIT is set or stays, T_f is not below T_hot (R11, R163). -/
theorem Tmon.test_inRange {m : Tmon} {p : Params} (hp : p.inRange) (h : m.inRange) : (m.test p).inRange := by
  obtain ⟨ht, -, hf, hv⟩ := h
  obtain ⟨-, hhot, hcrit⟩ := m.test_tested p
  obtain ⟨⟨-, -, -, -, -, -, -, -, -, -, -, -, hrel⟩, -⟩ := hp
  refine ⟨ht, fun hc => hhot.mpr ?_, hf, hv⟩
  rcases hcrit.mp hc with h | ⟨-, h⟩
  · exact Or.inl (by omega)
  · exact Or.inl (by omega)

theorem Tmon.load_inRange {m : Tmon} {p : Params} (hp : p.inRange) (h : m.inRange) : (m.load p).inRange := by
  unfold Tmon.load
  split
  · exact h
  · exact Tmon.test_inRange hp h

theorem Tmon.complete_inRange {m : Tmon} {loaded : Option Params} {o : Option Int} (hp : ∀ p, loaded = some p → p.inRange)
    (h : m.inRange) : (m.complete loaded o).inRange := by
  dsimp only [Tmon.complete]
  split
  · exact Tmon.failure_inRange h
  next x hx =>
    have hv := Tmon.valid_inRange h (validSample?_eq_some.mp hx).2
    split
    next p =>
      split
      · exact Tmon.test_inRange (hp p rfl) hv
      · exact hv
    next => exact hv

/-! ### The five commands that move them -/

theorem endOfLoading_tmon (p : Params) (s : State) : (endOfLoading p s).tmon = s.tmon.load p := by simp [endOfLoading]

theorem endOfLoading_csto (p : Params) (s : State) : (endOfLoading p s).csto = { s.csto with loaded := some p } := by
  simp [endOfLoading]

theorem temperatureRead_tmon (o : Option Int) (s : State) :
    (temperatureRead o s).tmon =
      if s.lsb.inFlight = some .temperature then s.tmon.complete s.csto.loaded o else s.tmon := by
  unfold temperatureRead
  split
  · simp
  · rfl

theorem TemperatureInv.congr {s t : State} (h : TemperatureInv s) (k : KeepsTemperature s t) : TemperatureInv t := by
  obtain ⟨hm, hl⟩ := k
  rw [temperatureInv_iff, State.paramsInRange, hm, hl]
  exact h

theorem temperatureInv_resetState (s : State) : TemperatureInv (resetState s) := by
  rw [temperatureInv_iff]
  exact ⟨fun _ hp => (nomatch hp), Tmon.reset_inRange⟩

theorem temperatureInv_release {s : State} (h : TemperatureInv s) (t : Nat) (fxs : Bool) : TemperatureInv (release t fxs s) := h

theorem temperatureInv_endOfLoading {s : State} (h : TemperatureInv s) :
    TemperatureInv (endOfLoading (loadParams s.csto.array) s) := by
  have hp := loadParams_inRange s.csto.array
  rw [temperatureInv_iff, State.paramsInRange, endOfLoading_tmon, endOfLoading_csto]
  exact ⟨fun p e => Option.some.inj e ▸ hp, Tmon.load_inRange hp h.2⟩

theorem temperatureInv_temperatureRead {s : State} (h : TemperatureInv s) (o : Option Int) :
    TemperatureInv (temperatureRead o s) := by
  have hcsto : (temperatureRead o s).csto = s.csto := by simp
  rw [temperatureInv_iff, temperatureRead_tmon, State.paramsInRange, hcsto]
  refine ⟨h.1, ?_⟩
  split
  · exact Tmon.complete_inRange h.1 h.2
  · exact h.2

/-- Every command keeps the temperature invariant (R8 to R11). -/
theorem temperatureInv_exec {s t : State} {c : Instr} (hs : TemperatureInv s) (h : exec c s = .next t) : TemperatureInv t := by
  by_cases hc : movesTemperature c = true
  · cases c with
    | reset => exact Host.Outcome.next.inj h ▸ temperatureInv_resetState s
    | resetRelease m fxs =>
      obtain rfl := Host.Outcome.next.inj h
      split
      · exact temperatureInv_release hs m fxs
      · exact hs
    | endOfLoading =>
      refine whenLive_next h hs ?_
      split
      · exact temperatureInv_endOfLoading hs
      · exact hs
    | pollTimerExpiry =>
      refine whenLive_next h hs ?_
      split
      · exact hs
      · exact hs
    | temperatureReadCompletion o => exact whenLive_next h hs (temperatureInv_temperatureRead hs o)
    | _ => cases hc
  · exact hs.congr (exec_keepsTemperature (by simpa using hc) h)

/-- Settles O50: line time moves the signalling alone, and every command keeps the invariant. -/
theorem temperatureInvariantKept : Obligations.TemperatureInvariantKept := by
  unfold Obligations.TemperatureInvariantKept
  intro s t hs h
  unfold step at h
  split at h
  · exact whenLive_next h hs hs
  next c rest _ => exact temperatureInv_exec (s := s.setPending rest) hs h

end Sys2Proof.Machine
end

section
/-! SUPPORT. The hand-off that ends an event (`settle`), said once: own flags, engine, the one evaluation, the raw set. -/

namespace Sys2Proof.Machine

/-! ### The hand-off of flags and estimates -/

theorem settle_sseq (x : State) : (settle x).sseq = x.sseq := by simp

theorem settle_lsb (x : State) : (settle x).lsb = x.lsb := by simp

theorem settle_sid (x : State) : (settle x).sid = x.sid := by simp

theorem settle_ptab (x : State) : (settle x).ptab = x.ptab := by simp

theorem settle_drvp (x : State) : (settle x).drvp = x.drvp := by simp

/-- The evaluation moves the signalling alone. -/
theorem State.evaluate_eq (s : State) (e : Option Entry) : s.evaluate e = s.setSlc (s.evaluate e).slc := by
  unfold State.evaluate
  split
  · rfl
  · rfl

/-- The hand-off from the end of loading on. -/
theorem settle_eq_of_loaded {x : State} {p : Params} {l : Rgb Nat} (hp : x.csto.loaded = some p) (hl : x.lest.l = some l) :
    settle x = handEvents 0 (((x.takeFlags.setTge (x.takeFlags.engine p l)).returnFlags l).evaluate x.tge.own) := by
  simp only [settle, hp, hl]

/-- Last of all the event unit takes the conditions as they then stand (R173). -/
theorem settle_raw (x : State) : (settle x).evu.raw = (settle x).conditions := by
  unfold settle
  split
  · exact handEvents_raw _ _
  · exact handEvents_raw _ _

/-- The own flags alone move at the estimator, and they are those that the owners then hold (R26). -/
theorem settle_lest (x : State) : (settle x).lest = { x.lest with ownFlags := (settle x).flags } := by
  dsimp only [settle]
  split
  · rw [State.evaluate_eq]; rfl
  · rfl

/-- The engine has its inputs from their owners, and the gains it applies stay (R126, R127, R140). -/
theorem State.engine_inputs (s : State) (p : Params) (l : Rgb Nat) :
    (s.engine p l).own = some ⟨l, s.lest.ownFlags⟩ ∧ (s.engine p l).crit = s.tmon.crit ∧
      (s.engine p l).peers = s.ptab.contributions ∧ (s.engine p l).applied = s.tge.applied := by
  unfold State.engine
  split
  next h => exact ⟨(congrArg Tge.own h).symm, (congrArg Tge.crit h).symm, (congrArg Tge.peers h).symm, rfl⟩
  next =>
    obtain ⟨ho, hp, hc, ha⟩ := Tge.recompute_inputs p (s.inputs l)
    exact ⟨ho, hc, hp, ha⟩

/-- A settled engine is settled after the hand-offs (R127). -/
theorem State.engine_settled {s : State} {p : Params} (l : Rgb Nat) (h : s.tge.recompute p = s.tge) :
    (s.engine p l).recompute p = s.engine p l := by
  unfold State.engine
  split
  · exact h
  · exact Tge.recompute_recompute p _

/-- The engine after the hand-off: what its inputs give, with the returned flags in the own entry (R27). -/
theorem settle_tge {x : State} {p : Params} {l : Rgb Nat} (hp : x.csto.loaded = some p) (hl : x.lest.l = some l) :
    (settle x).tge = { x.takeFlags.engine p l with own := some ⟨l, (settle x).flags⟩ } := by
  rw [settle_eq_of_loaded hp hl, State.evaluate_eq]
  rfl

/-- Before loading ends, or without estimates, the engine is not reached. -/
theorem settle_tge_unloaded {x : State} (h : x.csto.loaded = none ∨ x.lest.l = none) : (settle x).tge = x.tge := by
  unfold settle
  split
  next hp hl => rcases h with h | h <;> simp_all
  next => rfl

theorem settle_applied (x : State) : (settle x).tge.applied = x.tge.applied := by
  cases hp : x.csto.loaded with
  | none => rw [settle_tge_unloaded (.inl hp)]
  | some p =>
    cases hl : x.lest.l with
    | none => rw [settle_tge_unloaded (.inr hl)]
    | some l =>
      obtain ⟨-, -, -, happlied⟩ := x.takeFlags.engine_inputs p l
      rw [settle_tge hp hl]
      exact happlied

/-- A contribution is the triple and the flags of a FRESH slot (R118). -/
theorem contributionsFollow_of_peers {u : State} (h : u.tge.peers = u.ptab.contributions) : ContributionsFollow u := fun a => by
  rw [h, Ptab.contributions_get]
  cases u.ptab.slots.get a <;> rfl

theorem settle_engineTold {x : State} {p : Params} (hp : x.csto.loaded = some p) : EngineTold (settle x) := fun l hl => by
  have hl' : x.lest.l = some l := by rw [settle_lest] at hl; exact hl
  obtain ⟨-, hc, hpeers, -⟩ := x.takeFlags.engine_inputs p l
  refine ⟨?_, ?_, contributionsFollow_of_peers ?_⟩
  · rw [settle_tge hp hl', settle_lest]
  · rw [settle_tge hp hl']; simpa using hc
  · rw [settle_tge hp hl']; simpa using hpeers

/-- BELOWFLOOR is none of the five excluding flags, and not UNCAL (R128). -/
theorem excluded_flagsByte (hot crit tfault uncal settling senseFault belowFloor nosync : Bool) :
    excluded (flagsByte hot crit tfault uncal settling senseFault belowFloor nosync) =
        (hot || crit || tfault || uncal || settling) ∧
      hasUncal (flagsByte hot crit tfault uncal settling senseFault belowFloor nosync) = uncal := by
  revert hot crit tfault uncal settling senseFault belowFloor nosync
  decide

/-- A recompute reads of the own flags whether they exclude, and UNCAL (R128, R133, R135). -/
theorem Tge.recompute_reflagged {p : Params} {t : Tge} {l : Rgb Nat} {f f' : Byte} (ho : t.own = some ⟨l, f⟩)
    (he : excluded f' = excluded f) (hu : hasUncal f' = hasUncal f) (h : t.recompute p = t) :
    ({ t with own := some ⟨l, f'⟩ } : Tge).recompute p = { t with own := some ⟨l, f'⟩ } := by
  have hm : ({ t with own := some ⟨l, f'⟩ } : Tge).members = t.members := by
    simp [Tge.members, eligible, List.filterMap_cons, ho, he]
  simp only [Tge.recompute, ho] at h
  simp only [Tge.recompute, hm, hu]
  exact congrArg (fun u : Tge => { u with own := some ⟨l, f'⟩ }) h

/-- The results do not depend on the applied gains (R127). -/
theorem Tge.recompute_with_applied {p : Params} {t : Tge} (g : Rgb Nat) (h : t.recompute p = t) :
    ({ t with applied := g } : Tge).recompute p = { t with applied := g } := by
  have := congrArg (fun u : Tge => { u with applied := g }) h
  cases ho : t.own with
  | none => simp [Tge.recompute]
  | some own => simpa [Tge.recompute, Tge.members, ho] using this

/-- A settled engine stays settled: the flags that return move nothing but BELOWFLOOR in the own entry (R27, R127, R133). -/
theorem settle_recompute {x : State} {p : Params} (hp : x.csto.loaded = some p) (h : x.tge.recompute p = x.tge) :
    (settle x).tge.recompute p = (settle x).tge := by
  cases hl : x.lest.l with
  | none => rw [settle_tge_unloaded (.inr hl), h]
  | some l =>
    obtain ⟨ho, -⟩ := x.takeFlags.engine_inputs p l
    have hs : x.takeFlags.tge.recompute p = x.takeFlags.tge := by simpa using h
    rw [settle_tge hp hl]
    refine Tge.recompute_reflagged ho ?_ ?_ (State.engine_settled l hs)
    · simp [State.flags, excluded_flagsByte]
    · simp [State.flags, excluded_flagsByte]

/-- After the hand-off of an event that left a settled engine settled, the engine has taken the event. -/
theorem settle_engineWorks {s x : State} {p : Params} (hp : x.csto.loaded = some p)
    (h : s.tge.recompute p = s.tge → x.tge.recompute p = x.tge) : EngineWorks p s (settle x) :=
  ⟨settle_engineTold hp, fun hs => settle_recompute hp (h hs)⟩

/-! ### The one evaluation -/

/-- An early request neither reads nor moves STAKE slot, ASK slot and report timer (R76). -/
theorem earlyRequest_other_fields (st : IdState) (l : Slc) (a : OutSlot StakeReq) (b : OutSlot AskReq) (n : Option Nat) :
    earlyRequest st { l with stake := a, ask := b, reportTimer := n } =
      { earlyRequest st l with stake := a, ask := b, reportTimer := n } := by
  change (if st = .run then (if l.noticePending then _ else if l.spacing < 4 then _ else _) else _) = _
  unfold earlyRequest Slc.wantNotice
  split_ifs
  all_goals rfl

theorem earlyRequest_fields (st : IdState) (l : Slc) :
    earlyRequest st l = { l with notice := (earlyRequest st l).notice, deferred := (earlyRequest st l).deferred } := by
  unfold earlyRequest Slc.wantNotice
  repeat' split
  all_goals rfl

/-- Outside RUN an early request is dropped (R76). -/
theorem earlyRequest_notRun {st : IdState} (h : st ≠ .run) (l : Slc) : earlyRequest st l = l := if_neg h

theorem earlyRequest_congr {st st' : IdState} (h : st = .run ↔ st' = .run) (l : Slc) : earlyRequest st l = earlyRequest st' l := by
  unfold earlyRequest
  simp only [h]

/-- The hand-off leaves the signalling as it is, or hands one early request. -/
theorem settle_slc (x : State) : (settle x).slc = x.slc ∨ (settle x).slc = earlyRequest x.sid.st x.slc := by
  cases hp : x.csto.loaded with
  | none => exact .inl (settle_unloaded (.inl hp)).2
  | some p =>
    cases hl : x.lest.l with
    | none => exact .inl (settle_unloaded (.inr hl)).2
    | some l =>
      obtain ⟨-, -, hslc⟩ := settle_loaded hp hl
      rw [hslc]
      split
      · exact .inr rfl
      · exact .inl rfl

theorem settle_slc_fields (x : State) :
    (settle x).slc = { x.slc with notice := (settle x).slc.notice, deferred := (settle x).slc.deferred } := by
  rcases settle_slc x with h | h
  · rw [h]
  · rw [h]; exact earlyRequest_fields _ _

/-- The evaluation at the end of an event that reached `x` from `s`, with the signalling as in `l` but for STAKE slot, ASK
slot and report timer (R30). -/
theorem settle_evaluated {l : Slc} {s x : State} (hc : x.csto.loaded = s.csto.loaded) (ho : x.tge.own = s.tge.own)
    (hl : s.lest.l.isSome → x.lest.l.isSome) (hi : x.sid.st = .run ↔ s.sid.st = .run)
    (hx : x.slc = { l with stake := x.slc.stake, ask := x.slc.ask, reportTimer := x.slc.reportTimer }) : Evaluated l s (settle x) := by
  have hn : x.slc.notice = l.notice := by rw [hx]
  have hd : x.slc.deferred = l.deferred := by rw [hx]
  refine ⟨fun h => ?_, fun lum hp hlum hown => ?_⟩
  · rw [(settle_unloaded (.inl (hc.trans h))).2]
    exact ⟨hn, hd⟩
  · obtain ⟨p, hp⟩ := Option.isSome_iff_exists.mp hp
    obtain ⟨l', hl'⟩ := Option.isSome_iff_exists.mp (hl (by simp [hlum]))
    obtain ⟨-, hu, hslc⟩ := settle_loaded (hc.trans hp) hl'
    have hul : (settle x).lest.l = some l' := by rw [settle_lest]; exact hl'
    have hchange : (settle x).tge.own ≠ x.tge.own ↔
        (settle x).lest.l ≠ s.lest.l ∨ (settle x).lest.ownFlags ≠ s.lest.ownFlags := by
      rw [hu, ho, hown, hul, hlum]
      simp only [ne_eq, Option.some.injEq, Entry.mk.injEq]
      tauto
    rw [hslc]
    simp only [hchange]
    split
    · rw [hx, earlyRequest_other_fields, earlyRequest_congr hi]
      exact ⟨rfl, rfl⟩
    · exact ⟨hn, hd⟩

/-- The evaluation at the end of an event that moves nothing else of the signalling. -/
theorem settle_evaluatedAlone {s x : State} (hc : x.csto.loaded = s.csto.loaded) (ho : x.tge.own = s.tge.own)
    (hl : s.lest.l.isSome → x.lest.l.isSome) (hi : x.sid = s.sid) (hx : x.slc = s.slc) : EvaluatedAlone s (settle x) := by
  refine ⟨settle_evaluated hc ho hl (by rw [hi]) (by rw [hx]), ?_⟩
  have h := settle_slc_fields x
  rw [hx] at h
  exact h

/-- An event that moves neither estimator nor signalling has nothing to evaluate. -/
theorem evaluatedAlone_of_same {s u : State} (hl : u.lest = s.lest) (hs : u.slc = s.slc) : EvaluatedAlone s u := by
  refine ⟨⟨fun _ => by simp [hs], fun lum _ _ _ => ?_⟩, by rw [hs]⟩
  rw [if_neg (by simp [hl]), hs]
  exact ⟨rfl, rfl⟩

/-! ### Entries of the raw set -/

theorem entryIf_getLsbD {k i : Nat} (hi : i < 16) (b : Bool) : (entryIf k b).getLsbD i = (b && decide (i = k)) := by
  cases b with
  | false => simp [entryIf]
  | true =>
    change (BitVec.ofNat 16 (1 <<< k)).getLsbD i = _
    rw [BitVec.getLsbD_ofNat, Nat.one_shiftLeft, Nat.testBit_two_pow]
    simp [hi, eq_comm]

theorem conditions_tfault (s : State) : s.conditions.getLsbD 0 = s.tmon.tfault := by
  simp only [State.conditions, BitVec.getLsbD_or, entryIf_getLsbD (show 0 < 16 by decide)]
  simp

theorem conditions_uncal (s : State) : s.conditions.getLsbD 4 = s.csto.uncal := by
  simp only [State.conditions, BitVec.getLsbD_or, entryIf_getLsbD (show 4 < 16 by decide)]
  simp

theorem conditions_nosync (s : State) : s.conditions.getLsbD 8 = s.ftb.nosync := by
  simp only [State.conditions, BitVec.getLsbD_or, entryIf_getLsbD (show 8 < 16 by decide)]
  simp

end Sys2Proof.Machine
end

section
/-! SUPPORT. Reset and its release, the sensor bus, temperature reads and sense rounds: O3, O5, O9 to O13. -/

namespace Sys2Proof.Machine

/-! ### Reset and its release -/

/-- Settles O3: every block's reset value is the one its rule gives, and the array is cut off in a burn alone. -/
theorem resetReturnsEveryBlock : Obligations.ResetReturnsEveryBlock := by
  unfold Obligations.ResetReturnsEveryBlock
  intro s
  have hslots (a : Addr) : (resetState s).ptab.slots.get a = .empty :=
    Vector.getElem_replicate (n := 48) (a := PeerSlot.empty) a.isLt
  have hpeers (a : Addr) : (resetState s).tge.peers.get a = none :=
    Vector.getElem_replicate (n := 48) (a := (none : Option Entry)) a.isLt
  have harray (hb : s.csto.burn = none) : (resetState s).csto.array = s.csto.array := by
    simp [resetState, Csto.reset, Csto.arrayAtReset, hb]
  refine ⟨resetState s, rfl, rfl, rfl, rfl, ?tmon, rfl, ?lest, ?sseq, ?slc, ?fc, ?sid, ?ptab, ?tge, ?drvp, ?csto, rfl⟩
  case ptab => exact ⟨hslots, rfl, rfl, rfl, rfl⟩
  case tge => exact ⟨rfl, hpeers, rfl, rfl, rfl, rfl, rfl, rfl, rfl, rfl, rfl, rfl⟩
  case csto => exact ⟨rfl, rfl, rfl, rfl, harray⟩
  all_goals
    repeat' apply And.intro
    all_goals rfl

/-- Settles O5: the release moves five blocks, and there is one only where the line is held. -/
theorem releaseStartsTheTimers : Obligations.ReleaseStartsTheTimers := by
  unfold Obligations.ReleaseStartsTheTimers
  intro s t fxs
  refine ⟨fun hheld => ?_, fun hlive => ?_⟩
  · refine ⟨release t fxs s, congrArg Host.Outcome.next (if_pos hheld), rfl, rfl, rfl, rfl, rfl, rfl, fun b hb => ?_⟩
    cases b <;> simp_all [SameBlock, release]
  · have hnot : ¬s.pins.resetHeld = true := by simpa [State.live] using hlive
    exact congrArg Host.Outcome.next (if_neg hnot)

/-! ### The sensor bus -/

/-- The end of an operation, at the arbiter (R15). -/
theorem busNext_arbiterGoesOn (x : State) : ArbiterGoesOn x (busNext x) := by
  unfold ArbiterGoesOn busNext Lsb.next
  split
  · rfl
  next hn =>
    rw [Bool.not_eq_true] at hn
    split
    next ht => simp [hn]
    next ht => simp [hn, ht]

/-- The end of an operation, at the sequencer (R36). -/
theorem busNext_sseq (x : State) : (busNext x).sseq = { x.sseq with st := stateAfterBus x } := by
  unfold busNext stateAfterBus
  by_cases hw : x.lsb.sseqWaiting = true
  · by_cases ha : x.sseq.st = .armed
    · simp [hw, ha, Sseq.countStarts]
    · simp [hw, ha, Sseq.countStarts]
  · simp [hw]

/-- No count waits to start outside ARMED. -/
theorem busNext_sseq_notArmed {x : State} (h : x.sseq.st ≠ .armed) : (busNext x).sseq = x.sseq := by
  rw [busNext_sseq, stateAfterBus, if_neg fun hw => h hw.2]

/-- The end of an operation whose outcome has moved neither arbiter nor engine is handed on: the arbiter goes on, the engine works,
one evaluation is made. -/
theorem settle_busNext {s x : State} (hb : x.lsb = s.lsb) (hc : x.csto = s.csto) (ht : x.tge = s.tge) (hi : x.sid = s.sid)
    (hx : x.slc = s.slc) (hl : s.lest.l.isSome → x.lest.l.isSome) :
    ArbiterGoesOn s (settle (busNext x)) ∧ (∀ p, s.csto.loaded = some p → EngineWorks p s (settle (busNext x))) ∧
      EvaluatedAlone s (settle (busNext x)) := by
  refine ⟨?_, fun p hp => settle_engineWorks (by simp [hc, hp]) fun h => by simpa [ht] using h,
    settle_evaluatedAlone (by simp [hc]) (by simp [ht]) (by simpa using hl) (by simp [hi]) (by simp [hx])⟩
  have h := busNext_arbiterGoesOn x
  unfold ArbiterGoesOn at h ⊢
  simpa [hb] using h

/-- Settles O13: the poll, the interval timer and the settle timeout, each at its moment. -/
theorem pollAndRoundTimersExpire : Obligations.PollAndRoundTimersExpire := by
  unfold Obligations.PollAndRoundTimersExpire
  intro s hlive
  refine ⟨fun e he => ?poll, fun p n hp hst hn hle => ?interval, fun p n hp hset hn hle => ?timeout⟩
  case poll =>
    have hx : exec .pollTimerExpiry s = .next ((s.setTmon { s.tmon with pollTimer := some (afterMs e 100) }).setLsb
        s.lsb.requestTemperature) := by
      refine (whenLive_of_live hlive).trans ?_
      simp [he]
    refine ⟨_, hx, rfl, ?_, fun b hb => ?_⟩
    · cases hf : s.lsb.inFlight <;> simp [Lsb.requestTemperature, hf]
    · cases b <;> simp_all [SameBlock]
  case interval =>
    have hx : intervalExpiry s = s.setSseq { s.sseq with interval := none, st := .due, chan := .r } := by
      simp [intervalExpiry, hp, hn, hst, Params.intervalLimit, hle]
    refine ⟨_, whenLive_of_live hlive, congrArg State.sseq hx, fun b hb => ?_⟩
    rw [hx]
    cases b <;> simp_all [SameBlock]
  case timeout =>
    have hx : settleTimeout s = settle ((s.setLsb (if s.sseq.st = .armed then s.lsb.withdrawCount else s.lsb)).setSseq
        s.sseq.timeout) := by
      simp [settleTimeout, hp, hn, hset, Params.settleLimitTicks, hle]
    refine ⟨_, whenLive_of_live hlive, ?_, ?_, ?_, ?_, fun b hb => ?_⟩
    all_goals rw [hx]
    · simp [Sseq.timeout, Sseq.abandon, Sseq.dark, Sseq.settlingEnds, hset, Rgb.all]
    · simp [Lsb.withdrawCount]
    · simp [settle_lest]
    · exact settle_evaluatedAlone rfl rfl id rfl rfl
    · cases b <;> simp_all [SameBlock]

/-! ### A temperature read at TMON -/

/-- A reading that is no valid sample is a failure (R7, R9). -/
theorem Tmon.complete_invalid {o : Option Int} (h : ∀ x, o = some x → x < -640 ∨ 2000 < x) (m : Tmon)
    (loaded : Option Params) :
    m.complete loaded o =
      if m.tfault then { m with validRun := 0 }
      else if 9 ≤ m.failRun then { m with tfault := true, failRun := 0, validRun := 0 }
      else { m with failRun := m.failRun + 1 } := by
  have hv : validSample? o = none := Option.eq_none_iff_forall_ne_some.mpr fun x hx => by
    obtain ⟨ho, hlo, hhi⟩ := validSample?_eq_some.mp hx
    have := h x ho
    omega
  simp only [Tmon.complete, hv, Tmon.failure]

theorem Tmon.complete_sample_unloaded {x : Int} (hx : -640 ≤ x ∧ x ≤ 2000) (m : Tmon) :
    m.complete none (some x) = m.valid x := by
  simp only [Tmon.complete, validSample?_eq_some.mpr ⟨rfl, hx⟩]

/-- A valid sample: the thresholds are tested after it where T_f has moved or TFAULT clears (R7, R11). -/
theorem Tmon.complete_sample_loaded {x : Int} (hx : -640 ≤ x ∧ x ≤ 2000) (m : Tmon) (p : Params) :
    m.complete (some p) (some x) =
      if !(m.valid x).tfault && (m.tfault || (m.valid x).tf != m.tf) then (m.valid x).test p else m.valid x := by
  simp only [Tmon.complete, validSample?_eq_some.mpr ⟨rfl, hx⟩]

theorem Tmon.valid_clear {m : Tmon} (h : m.tfault = false) (x : Int) :
    m.valid x = { m with tf := filterStep m.tf x, failRun := 0 } := by simp [Tmon.valid, h]

/-- A valid sample with TFAULT clear moves T_f by the filter, and HOT and CRIT only by a test (R8, R11). -/
theorem Tmon.complete_clear {m : Tmon} (h : m.tfault = false) {x : Int} (hx : -640 ≤ x ∧ x ≤ 2000) (loaded : Option Params) :
    (∃ hot crit, m.complete loaded (some x) =
        { m with tf := filterStep m.tf x, failRun := 0, hot := hot, crit := crit }) ∧
      (∀ p, loaded = some p → filterStep m.tf x ≠ m.tf → TestedAs p m (m.complete loaded (some x))) ∧
      (loaded = none ∨ filterStep m.tf x = m.tf →
        (m.complete loaded (some x)).hot = m.hot ∧ (m.complete loaded (some x)).crit = m.crit) := by
  cases loaded with
  | none =>
    rw [Tmon.complete_sample_unloaded hx, Tmon.valid_clear h]
    exact ⟨⟨m.hot, m.crit, rfl⟩, fun p hp => (nomatch hp), fun _ => ⟨rfl, rfl⟩⟩
  | some q =>
    rw [Tmon.complete_sample_loaded hx, Tmon.valid_clear h]
    by_cases he : filterStep m.tf x = m.tf
    · have hm : (!m.tfault && (m.tfault || filterStep m.tf x != m.tf)) = false := by simp [h, he]
      simp only [hm]
      exact ⟨⟨m.hot, m.crit, rfl⟩, fun p _ hne => absurd he hne, fun _ => ⟨rfl, rfl⟩⟩
    · have hm : (!m.tfault && (m.tfault || filterStep m.tf x != m.tf)) = true := by simp [h, he]
      simp only [hm]
      refine ⟨⟨_, _, rfl⟩, fun p hp _ => ?_, fun hn => ?_⟩
      · obtain rfl := Option.some.inj hp
        exact (Tmon.test_tested _ _).2
      · rcases hn with hn | hn
        · cases hn
        · exact absurd hn he

/-- A valid sample under TFAULT short of the fifth in a row raises the run alone (R10). -/
theorem Tmon.complete_run {m : Tmon} (h : m.tfault = true) {x : Int} (hx : -640 ≤ x ∧ x ≤ 2000) (hr : ¬4 ≤ m.validRun)
    (loaded : Option Params) : m.complete loaded (some x) = { m with validRun := m.validRun + 1 } := by
  have hv : m.valid x = { m with validRun := m.validRun + 1 } := by simp [Tmon.valid, h, hr]
  cases loaded with
  | none => rw [Tmon.complete_sample_unloaded hx, hv]
  | some p => simp [Tmon.complete_sample_loaded hx, hv, h]

/-- The fifth valid sample in a row clears TFAULT, T_f takes it, and the thresholds are tested (R10, R11). -/
theorem Tmon.complete_clearing {m : Tmon} (h : m.tfault = true) {x : Int} (hx : -640 ≤ x ∧ x ≤ 2000) (hr : 4 ≤ m.validRun)
    (loaded : Option Params) :
    (∃ hot crit, m.complete loaded (some x) = { m with tfault := false, tf := x, validRun := 0, hot := hot, crit := crit }) ∧
      ∀ p, loaded = some p → TestedAs p m (m.complete loaded (some x)) := by
  have hv : m.valid x = { m with tfault := false, tf := x, validRun := 0 } := by simp [Tmon.valid, h, hr]
  cases loaded with
  | none =>
    rw [Tmon.complete_sample_unloaded hx, hv]
    exact ⟨⟨m.hot, m.crit, rfl⟩, fun p hp => (nomatch hp)⟩
  | some q =>
    rw [Tmon.complete_sample_loaded hx, hv]
    simp only [h, Bool.not_false, Bool.true_or, Bool.and_self, if_true]
    refine ⟨⟨_, _, rfl⟩, fun p hp => ?_⟩
    obtain rfl := Option.some.inj hp
    exact (Tmon.test_tested _ _).2

/-! ### A temperature read and its hand-offs -/

theorem handTemperature_sseq (tf : Int) (b : Bool) (x : State) :
    (handTemperature tf b x).sseq = x.sseq.takeTemperature x.csto.loaded x.tmon := by
  dsimp only [handTemperature]
  repeat' split
  all_goals rfl

/-- The factors and estimates follow T_f and TFAULT where one has changed, from the end of loading on (R20, R24). -/
theorem handTemperature_lest (tf : Int) (b : Bool) (x : State) :
    (handTemperature tf b x).lest = match x.csto.loaded with
      | some p => if x.tmon.tf = tf ∧ x.tmon.tfault = b then x.lest else x.lest.thermal p.chars x.tmon.tf
      | none => x.lest := by
  cases hp : x.csto.loaded with
  | none => simp [handTemperature, hp]
  | some p =>
    simp only [handTemperature, State.setSseq_csto, State.setSseq_tmon, hp, Bool.and_eq_true, decide_eq_true_eq]
    split
    · rfl
    · rfl

/-- The state in which the hand-offs of a temperature read find the part. -/
def temperatureTaken (o : Option Int) (s : State) : State :=
  handTemperature s.tmon.tf s.tmon.tfault (s.setTmon (s.tmon.complete s.csto.loaded o))

theorem temperatureTaken_lest (o : Option Int) (s : State) :
    (temperatureTaken o s).lest = match s.csto.loaded with
      | some p =>
        if (s.tmon.complete s.csto.loaded o).tf = s.tmon.tf ∧ (s.tmon.complete s.csto.loaded o).tfault = s.tmon.tfault then s.lest
        else s.lest.thermal p.chars (s.tmon.complete s.csto.loaded o).tf
      | none => s.lest := handTemperature_lest _ _ _

theorem temperatureRead_eq {o : Option Int} {s : State} (h : s.lsb.inFlight = some .temperature) :
    temperatureRead o s = settle (busNext (temperatureTaken o s)) := if_pos h

theorem temperatureRead_tmon_inFlight {o : Option Int} {s : State} (h : s.lsb.inFlight = some .temperature) :
    (temperatureRead o s).tmon = s.tmon.complete s.csto.loaded o := by rw [temperatureRead_tmon, if_pos h]

/-- What a read moves at the estimator: factors and estimates as TMON's change gives, and the own flags (R20, R24, R26). -/
theorem temperatureRead_lest {o : Option Int} {s : State} (h : s.lsb.inFlight = some .temperature) :
    (temperatureRead o s).lest.a = s.lest.a ∧
      (s.csto.loaded = none ∨
          (temperatureRead o s).tmon.tf = s.tmon.tf ∧ (temperatureRead o s).tmon.tfault = s.tmon.tfault →
        (temperatureRead o s).lest.f = s.lest.f ∧ (temperatureRead o s).lest.l = s.lest.l) ∧
      ∀ p, s.csto.loaded = some p →
        ¬((temperatureRead o s).tmon.tf = s.tmon.tf ∧ (temperatureRead o s).tmon.tfault = s.tmon.tfault) →
        ∃ f, f = p.chars.map (fun c => thermalFactor c.curve (temperatureRead o s).tmon.tf) ∧
          (temperatureRead o s).lest.f = some f ∧ (temperatureRead o s).lest.l = some (estimates p.chars f s.lest.a) := by
  rw [temperatureRead_tmon_inFlight h, temperatureRead_eq h, settle_lest]
  simp only [busNext_frame, temperatureTaken_lest]
  cases s.csto.loaded with
  | none => exact ⟨rfl, fun _ => ⟨rfl, rfl⟩, fun p hp => (nomatch hp)⟩
  | some q =>
    by_cases hsame : (s.tmon.complete (some q) o).tf = s.tmon.tf ∧ (s.tmon.complete (some q) o).tfault = s.tmon.tfault
    · simp only [if_pos hsame]
      exact ⟨trivial, fun _ => ⟨trivial, trivial⟩, fun p _ hn => absurd hsame hn⟩
    · simp only [if_neg hsame]
      refine ⟨rfl, fun hn => ?_, fun p hp _ => ?_⟩
      · rcases hn with hn | hn
        · cases hn
        · exact absurd hn hsame
      · obtain rfl := Option.some.inj hp
        exact ⟨_, rfl, rfl, rfl⟩

theorem temperatureRead_sequencerTold {o : Option Int} {s : State} (h : s.lsb.inFlight = some .temperature) :
    SequencerTold s (temperatureRead o s) := by
  unfold SequencerTold
  rw [temperatureRead_tmon_inFlight h, temperatureRead_eq h, settle_sseq, busNext_sseq]
  simp [temperatureTaken, handTemperature_sseq, Sseq.takeTemperature, stateAfterBus, and_assoc]

/-- Every outcome reaches bus, engine and the evaluation (R15, R30, R126, R127). -/
theorem temperatureRead_handsOn {o : Option Int} {s : State} (h : s.lsb.inFlight = some .temperature) :
    ArbiterGoesOn s (temperatureRead o s) ∧ (∀ p, s.csto.loaded = some p → EngineWorks p s (temperatureRead o s)) ∧
      EvaluatedAlone s (temperatureRead o s) := by
  rw [temperatureRead_eq h]
  refine settle_busNext (by simp [temperatureTaken]) (by simp [temperatureTaken]) (by simp [temperatureTaken])
    (by simp [temperatureTaken]) (by simp [temperatureTaken]) fun hl => ?_
  rw [temperatureTaken_lest]
  repeat' split
  all_goals simp_all [Lest.thermal]

theorem temperatureRead_onlyChanges (o : Option Int) (s : State) :
    OnlyChanges [.tmon, .lsb, .sseq, .lest, .tge, .slc, .evu] s (temperatureRead o s) := fun b hb => by
  cases b <;> simp_all [SameBlock]

/-- Settles O9: TMON takes the sample (`Tmon.complete_clear`), and the read's hand-offs follow. -/
theorem sampleMovesTheFilter : Obligations.SampleMovesTheFilter := by
  unfold Obligations.SampleMovesTheFilter
  intro s x hlive hf hclear hlo hhi
  obtain ⟨harb, heng, hev⟩ := temperatureRead_handsOn (o := some x) hf
  obtain ⟨ha, hkeep, hmoved⟩ := temperatureRead_lest (o := some x) hf
  have hm := temperatureRead_tmon_inFlight (o := some x) hf
  obtain ⟨⟨hot, crit, he⟩, htest, hsame⟩ := Tmon.complete_clear hclear ⟨hlo, hhi⟩ s.csto.loaded
  have htf : (temperatureRead (some x) s).tmon.tf = filterStep s.tmon.tf x := by rw [hm, he]
  have hfault : (temperatureRead (some x) s).tmon.tfault = s.tmon.tfault := by rw [hm, he]
  refine ⟨temperatureRead (some x) s, whenLive_of_live hlive, htf, by rw [hm, he], hfault.trans hclear, by rw [hm, he],
    by rw [hm, he], fun p hp hne => ?_, fun h => ?_, fun p hp hne => ?_, fun h => hkeep (.inr ⟨h, hfault⟩), ha,
    temperatureRead_sequencerTold hf, harb, heng, hev, temperatureRead_onlyChanges _ s⟩
  · rw [hm]
    exact htest p hp (htf ▸ hne)
  · rw [hm]
    exact hsame (htf ▸ h)
  · obtain ⟨f, rfl, hf', hl'⟩ := hmoved p hp fun h => hne h.1
    exact ⟨hf', _, hf', hl'⟩

/-- Settles O10: the runs at TMON, by whether the outcome is a valid sample, and the read's hand-offs. -/
theorem runsRaiseAndClearTfault : Obligations.RunsRaiseAndClearTfault := by
  unfold Obligations.RunsRaiseAndClearTfault
  intro s o hlive hf
  obtain ⟨harb, heng, hev⟩ := temperatureRead_handsOn (o := o) hf
  obtain ⟨-, -, hmoved⟩ := temperatureRead_lest (o := o) hf
  have hm := temperatureRead_tmon_inFlight (o := o) hf
  have hseq := temperatureRead_sequencerTold (o := o) hf
  have hraw : (temperatureRead o s).evu.raw.getLsbD 0 = (temperatureRead o s).tmon.tfault := by
    rw [temperatureRead_eq hf, settle_raw, conditions_tfault]
  refine ⟨temperatureRead o s, whenLive_of_live hlive, fun hbad => hm.trans (Tmon.complete_invalid hbad _ _), ?_, hseq, harb,
    heng, hev, hraw, temperatureRead_onlyChanges _ s⟩
  rintro x rfl hlo hhi hfault
  split
  next hrun =>
    obtain ⟨⟨hot, crit, he⟩, htest⟩ := Tmon.complete_clearing hfault ⟨hlo, hhi⟩ hrun s.csto.loaded
    rw [← hm] at he htest
    have hclear : (temperatureRead (some x) s).tmon.tfault = false := by rw [he]
    have htf : (temperatureRead (some x) s).tmon.tf = x := by rw [he]
    refine ⟨hclear, htf, by rw [he], fun p hp => ⟨htest p hp, ?_, fun hheld => ?_⟩⟩
    · rw [htf] at hmoved
      exact hmoved p hp fun h => by simp [hclear, hfault] at h
    · rw [hseq]
      simp [hheld, hclear, hp]
  next hrun => exact hm.trans (Tmon.complete_run hfault ⟨hlo, hhi⟩ hrun _)

/-! ### A failure of the current channel -/

/-- A failure with the drive off is counted, and abandons the round at the third in a row (R39). -/
theorem Sseq.dark_failed_counted (q : Sseq) : FailureCounted q q.dark.failed := by
  unfold FailureCounted
  by_cases hn : q.fails.get q.chan + 1 < 3
  · have he : q.dark.failed = { q.dark with fails := q.fails.set q.chan (q.fails.get q.chan + 1), st := .due } :=
      if_neg (show ¬3 ≤ q.fails.get q.chan + 1 by omega)
    rw [if_pos hn, he]
    exact ⟨rfl, rfl, rfl, rfl, rfl, rfl⟩
  · have he : q.dark.failed = q.dark.abandon := if_pos (show 3 ≤ q.fails.get q.chan + 1 by omega)
    rw [if_neg hn, he]
    cases hs : q.settling <;> simp [Sseq.abandon, Sseq.dark, Sseq.settlingEnds, Rgb.all, hs]

/-- A failure leaves what the sequencer holds of TMON, and the late count; it ends in DUE or IDLE. -/
theorem Sseq.failed_keeps (q : Sseq) :
    q.failed.late = q.late ∧ q.failed.heldTf = q.heldTf ∧ q.failed.heldTfault = q.heldTfault ∧ q.failed.st ≠ .armed := by
  dsimp only [Sseq.failed, Sseq.abandon, Sseq.settlingEnds]
  repeat' split
  all_goals exact ⟨rfl, rfl, rfl, fun h => nomatch h⟩

/-! ### Windows -/

theorem windowClose_armed {s : State} (h : s.sseq.st = .armed) :
    windowClose s = settle (((s.setPins { s.pins with swin := false }).setLsb s.lsb.withdrawCount).setSseq
      s.sseq.dark.failed) := by simp [windowClose, h]

theorem windowClose_wait {s : State} (h : s.sseq.st = .wait) :
    windowClose s = settle ((s.setPins { s.pins with swin := false }).setSseq { s.sseq.dark.failed with late := true }) := by
  simp [windowClose, h]

theorem windowClose_onlyChanges (s : State) :
    OnlyChanges [.pins, .sseq, .lsb, .lest, .tge, .slc, .evu] s (windowClose s) := fun b hb => by
  cases b <;> simp_all [SameBlock]

theorem windowOpen_onlyChanges (s : State) : OnlyChanges [.pins, .sseq, .lsb] s (windowOpen s) := fun b hb => by
  cases b <;> simp_all [SameBlock]

/-- Settles O11: the opening by R35's three conditions, the close by the sequencer's state. -/
theorem senseWindowsOpenAndClose : Obligations.SenseWindowsOpenAndClose := by
  unfold Obligations.SenseWindowsOpenAndClose
  intro s hlive
  refine ⟨⟨windowOpen s, whenLive_of_live hlive, ?_, ?_, windowOpen_onlyChanges s⟩,
    ⟨windowClose s, whenLive_of_live hlive, ?_, ?_, ?_, windowClose_onlyChanges s⟩⟩
  · unfold windowOpen
    dsimp only
    split
    · rfl
    · rfl
  · split
    next hopen =>
      obtain ⟨hst, hfault, hlate⟩ := hopen
      cases hf : s.lsb.inFlight <;> simp [windowOpen, hst, hfault, hlate, hf, Lsb.requestCount]
    next hopen =>
      have hno : (s.sseq.st = .due && !s.sseq.heldTfault && !s.sseq.late) = false := by
        rw [Bool.eq_false_iff]
        intro hall
        simp only [Bool.and_eq_true, decide_eq_true_eq, Bool.not_eq_true'] at hall
        obtain ⟨⟨hst, hfault⟩, hlate⟩ := hall
        exact hopen ⟨hst, hfault, hlate⟩
      simp [windowOpen, hno]
  · unfold windowClose
    cases s.sseq.st <;> simp
  · cases hst : s.sseq.st with
    | idle => simp [windowClose, hst]
    | due => simp [windowClose, hst]
    | armed =>
      rw [windowClose_armed hst, settle_sseq, settle_lsb]
      exact ⟨s.sseq.dark_failed_counted, rfl, (Sseq.failed_keeps _).1⟩
    | wait =>
      rw [windowClose_wait hst, settle_sseq, settle_lsb]
      exact ⟨s.sseq.dark_failed_counted, rfl, rfl⟩
  · cases hst : s.sseq.st with
    | idle | due => exact evaluatedAlone_of_same (by simp [windowClose, hst]) (by simp [windowClose, hst])
    | armed => rw [windowClose_armed hst]; exact settle_evaluatedAlone rfl rfl id rfl rfl
    | wait => rw [windowClose_wait hst]; exact settle_evaluatedAlone rfl rfl id rfl rfl

/-! ### The outcome of a count -/

/-- A count that can be accepted is neither 0 nor 65535 (R37). -/
theorem goodCount?_of_good {n : BitVec 16} (h0 : n ≠ 0) (h1 : n ≠ 65535) : goodCount? (some n) = some n.toNat :=
  if_neg (not_or.mpr ⟨h0, h1⟩)

theorem goodCount?_of_bad {o : Option (BitVec 16)} (h : o = none ∨ o = some 0 ∨ o = some 65535) : goodCount? o = none := by
  rcases h with rfl | rfl | rfl
  · rfl
  · rfl
  · rfl

/-- After an accepted count the next channel is due, or the round is complete (R38, R42). -/
theorem Sseq.accepted_advances (q : Sseq) (limit : Nat) :
    match q.chan with
    | .r => (q.accepted limit).chan = .g ∧ (q.accepted limit).st = .due ∧ (q.accepted limit).fails = q.fails.set .r 0
    | .g => (q.accepted limit).chan = .b ∧ (q.accepted limit).st = .due ∧ (q.accepted limit).fails = q.fails.set .g 0
    | .b => (q.accepted limit).chan = .r ∧ (q.accepted limit).fails = ⟨0, 0, 0⟩ ∧ (q.accepted limit).senseFault = false ∧
      (if q.settling = true then
         (q.accepted limit).settleRounds = q.settleRounds + 1 ∧
         (if limit ≤ q.settleRounds + 1 then
            (q.accepted limit).settling = false ∧ (q.accepted limit).st = .idle ∧ (q.accepted limit).interval = some 0
          else (q.accepted limit).settling = true ∧ (q.accepted limit).st = .due)
       else (q.accepted limit).st = .idle ∧ (q.accepted limit).interval = some 0) := by
  cases hc : q.chan with
  | r => simp [Sseq.accepted, hc]
  | g => simp [Sseq.accepted, hc]
  | b =>
    cases hs : q.settling with
    | false => simp [Sseq.accepted, Sseq.roundComplete, Rgb.all, hc, hs]
    | true =>
      by_cases hl : limit ≤ q.settleRounds + 1
      · simp [Sseq.accepted, Sseq.roundComplete, Sseq.settlingEnds, Rgb.all, hc, hs, hl]
      · simp [Sseq.accepted, Sseq.roundComplete, Rgb.all, hc, hs, hl]

/-- An accepted count leaves the drive and what the sequencer holds of TMON; it ends in DUE or IDLE. -/
theorem Sseq.accepted_keeps (q : Sseq) (limit : Nat) :
    (q.accepted limit).drive = q.drive ∧ (q.accepted limit).heldTf = q.heldTf ∧
      (q.accepted limit).heldTfault = q.heldTfault ∧ (q.accepted limit).st ≠ .armed := by
  dsimp only [Sseq.accepted, Sseq.roundComplete, Sseq.settlingEnds]
  repeat' split
  all_goals exact ⟨rfl, rfl, rfl, fun h => nomatch h⟩

/-- An accepted count moves its channel's aging factor by one filter step, and its estimate after it (R22, R24). -/
theorem Lest.sample_moves {e : Lest} {f : Rgb Nat} (hf : e.f = some f) (chars : Rgb CharChannel) (c : Channel) (n k : Nat) :
    (e.sample chars c n k).a = e.a.set c (agingStep (e.a.get c) (agingRatio n (chars.get c).sRef k)) ∧
      ∀ l, e.l = some l → (e.sample chars c n k).l =
        some (l.set c (estimate (chars.get c).lRef (f.get c) ((e.sample chars c n k).a.get c))) := by
  cases hl : e.l with
  | none => exact ⟨by simp [Lest.sample, hf, hl], fun l h => nomatch h⟩
  | some l0 =>
    refine ⟨by simp [Lest.sample, hf, hl], fun l h => ?_⟩
    obtain rfl := Option.some.inj h
    simp [Lest.sample, hf, hl]

theorem countOutcome_late {o : Option (BitVec 16)} {s : State} (h : s.sseq.late = true) :
    countOutcome o s = s.setSseq { s.sseq with late := false } := if_pos h

theorem countOutcome_notWaiting {o : Option (BitVec 16)} {s : State} (h : s.sseq.late = false) (hst : s.sseq.st ≠ .wait) :
    countOutcome o s = s := by
  unfold countOutcome
  rw [if_neg (by simp [h])]
  split
  next hw => exact absurd hw hst
  next => rfl

theorem countOutcome_waiting {o : Option (BitVec 16)} {s : State} {p : Params} (hp : s.csto.loaded = some p)
    (h : s.sseq.late = false) (hst : s.sseq.st = .wait) : countOutcome o s = classifyCount p o s := by
  simp [countOutcome, h, hp, hst]

theorem classifyCount_tfault {o : Option (BitVec 16)} {s : State} (p : Params) (h : s.sseq.heldTfault = true) :
    classifyCount p o s = s.setSseq { s.sseq with drive := none, st := .due } := if_pos h

theorem classifyCount_bad {o : Option (BitVec 16)} {s : State} (p : Params) (h : s.sseq.heldTfault = false)
    (ho : goodCount? o = none) : classifyCount p o s = s.setSseq s.sseq.dark.failed := by
  simp [classifyCount, Sseq.dark, h, ho]

theorem classifyCount_good {o : Option (BitVec 16)} {s : State} {n : Nat} {f : Rgb Nat} (p : Params)
    (h : s.sseq.heldTfault = false) (ho : goodCount? o = some n) (hf : s.lest.f = some f) :
    classifyCount p o s = (s.setSseq (s.sseq.dark.accepted p.settleLimit)).setLest
      (s.lest.sample p.chars s.sseq.chan n (f.get s.sseq.chan)) := by
  simp [classifyCount, Sseq.dark, h, ho, hf]

/-- A count judged in WAIT turns the drive off and ends in DUE or IDLE (R37 to R39, R42). -/
theorem classifyCount_sseq (p : Params) (o : Option (BitVec 16)) (s : State) :
    (classifyCount p o s).sseq.drive = none ∧ (classifyCount p o s).sseq.heldTf = s.sseq.heldTf ∧
      (classifyCount p o s).sseq.heldTfault = s.sseq.heldTfault ∧ (classifyCount p o s).sseq.st ≠ .armed := by
  unfold classifyCount
  dsimp only
  split
  · exact ⟨rfl, rfl, rfl, fun h => nomatch h⟩
  · split
    · exact Sseq.accepted_keeps _ _
    · obtain ⟨-, htf, hfault, hst⟩ := Sseq.failed_keeps s.sseq.dark
      exact ⟨s.sseq.dark_failed_counted.1, htf, hfault, hst⟩

theorem countOutcome_held (o : Option (BitVec 16)) (s : State) :
    (countOutcome o s).sseq.heldTf = s.sseq.heldTf ∧ (countOutcome o s).sseq.heldTfault = s.sseq.heldTfault := by
  unfold countOutcome
  split
  · exact ⟨rfl, rfl⟩
  · split
    · obtain ⟨-, htf, hfault, -⟩ := classifyCount_sseq _ o s
      exact ⟨htf, hfault⟩
    · exact ⟨rfl, rfl⟩

/-- A count takes no estimate away. -/
theorem countOutcome_estimates {o : Option (BitVec 16)} {s : State} (h : s.lest.l.isSome) :
    (countOutcome o s).lest.l.isSome := by
  dsimp only [countOutcome, classifyCount, Lest.sample]
  repeat' split
  all_goals simp_all

/-! ### A count and its hand-offs -/

theorem countArrival_eq {o : Option (BitVec 16)} {s : State} (h : s.lsb.inFlight = some .count) :
    countArrival o s = settle (busNext (countOutcome o s)) := if_pos h

theorem countArrival_sseq {o : Option (BitVec 16)} {s : State} (h : s.lsb.inFlight = some .count) :
    (countArrival o s).sseq = { (countOutcome o s).sseq with st := stateAfterBus (countOutcome o s) } := by
  rw [countArrival_eq h, settle_sseq, busNext_sseq]

theorem countArrival_lest {o : Option (BitVec 16)} {s : State} (h : s.lsb.inFlight = some .count) :
    (countArrival o s).lest.a = (countOutcome o s).lest.a ∧ (countArrival o s).lest.l = (countOutcome o s).lest.l := by
  rw [countArrival_eq h, settle_lest]
  simp

/-- A count judged in WAIT leaves the sequencer as the classification has it: no waiting count starts then (R36). -/
theorem countArrival_sseq_waiting {o : Option (BitVec 16)} {s : State} {p : Params} (h : s.lsb.inFlight = some .count)
    (hp : s.csto.loaded = some p) (hlate : s.sseq.late = false) (hst : s.sseq.st = .wait) :
    (countArrival o s).sseq = (classifyCount p o s).sseq := by
  obtain ⟨-, -, -, hends⟩ := classifyCount_sseq p o s
  rw [countArrival_eq h, countOutcome_waiting hp hlate hst, settle_sseq, busNext_sseq_notArmed hends]

theorem countArrival_handsOn {o : Option (BitVec 16)} {s : State} (h : s.lsb.inFlight = some .count) :
    ArbiterGoesOn s (countArrival o s) ∧ (∀ p, s.csto.loaded = some p → EngineWorks p s (countArrival o s)) ∧
      EvaluatedAlone s (countArrival o s) := by
  rw [countArrival_eq h]
  exact settle_busNext (by simp) (by simp) (by simp) (by simp) (by simp) countOutcome_estimates

theorem countArrival_onlyChanges (o : Option (BitVec 16)) (s : State) :
    OnlyChanges [.lsb, .sseq, .lest, .tge, .slc, .evu] s (countArrival o s) := fun b hb => by
  cases b <;> simp_all [SameBlock]

/-- Settles O12: late, outside WAIT, and in WAIT by the classes of R37, with the hand-offs of every count. -/
theorem countOutcomeIsClassed : Obligations.CountOutcomeIsClassed := by
  unfold Obligations.CountOutcomeIsClassed
  intro s o p f hlive hcount hp hf
  obtain ⟨harb, heng, hev⟩ := countArrival_handsOn (o := o) hcount
  obtain ⟨htf, hfault⟩ := countOutcome_held o s
  obtain ⟨ha, hl⟩ := countArrival_lest (o := o) hcount
  have hseq := countArrival_sseq (o := o) hcount
  refine ⟨countArrival o s, whenLive_of_live hlive, fun hlate => ?_, fun hlate hst => ?_, fun hlate hst => ?_, ?_, ?_, harb,
    heng p hp, hev, countArrival_onlyChanges o s⟩
  · rw [hseq, ha, countOutcome_late hlate]
    exact ⟨rfl, rfl, rfl, rfl, rfl⟩
  · rw [hseq, ha, countOutcome_notWaiting hlate hst]
    exact ⟨rfl, rfl⟩
  · have hw := countArrival_sseq_waiting (o := o) hcount hp hlate hst
    rw [countOutcome_waiting hp hlate hst] at ha hl
    rw [hw, ha, hl]
    refine ⟨(classifyCount_sseq p o s).1, fun hheld => ?_, fun hheld hbad => ?_, ?_⟩
    · rw [classifyCount_tfault p hheld]
      exact ⟨rfl, rfl⟩
    · rw [classifyCount_bad p hheld (goodCount?_of_bad hbad)]
      exact ⟨s.sseq.dark_failed_counted, rfl⟩
    · rintro n hheld rfl h0 h1
      rw [classifyCount_good p hheld (goodCount?_of_good h0 h1) hf]
      exact ⟨Lest.sample_moves hf _ _ _ _, s.sseq.dark.accepted_advances p.settleLimit⟩
  · rw [hseq]; exact htf
  · rw [hseq]; exact hfault

end Sys2Proof.Machine
end

section
/-! SUPPORT. A change of identity state, entries that stay latched through an event's hand-offs, and the end of loading: O6.
-/

namespace Sys2Proof.Machine

/-! ### Entries that rise in an event of several hand-offs -/

/-- Entry `k` of the raw set is latched where it is set: so it is from before its rise until a clear request (R174, R178). -/
def Evu.LatchedIfSet (k : Nat) (e : Evu) : Prop := e.raw.getLsbD k = true → e.latched.getLsbD k = true

theorem Evu.latchedIfSet_of_clear {k : Nat} {e : Evu} (h : e.raw.getLsbD k = false) : e.LatchedIfSet k := fun h' => by
  simp [h] at h'

/-- Each hand-off of events keeps it: the entry is latched before, or rises now (R174). -/
theorem Evu.LatchedIfSet.take {k : Nat} {e : Evu} (h : e.LatchedIfSet k) (now pulses : EventSet) :
    (e.take now pulses).LatchedIfSet k := fun hnow => by
  cases hr : e.raw.getLsbD k with
  | false => exact (Evu.take_arises hr hnow).1
  | true => exact (e.take_keeps now pulses k).1 (h hr)

theorem settle_evu (x : State) : (settle x).evu = x.evu.take (settle x).conditions 0 := by
  dsimp only [settle]
  split
  · rw [State.evaluate_eq]; rfl
  · rfl

/-! ### A change of identity state -/

/-- The ASK slot's renewal moves the ASK target alone of the peer table (R121). -/
theorem askUpdate_ptab (s : State) : (askUpdate s).ptab = { s.ptab with askTarget := (askUpdate s).ptab.askTarget } := by
  dsimp only [askUpdate]
  repeat' split
  all_goals rfl

/-- Of the signalling it moves the ASK slot alone. -/
theorem askUpdate_slc (s : State) : (askUpdate s).slc = { s.slc with ask := (askUpdate s).slc.ask } := by
  dsimp only [askUpdate]
  repeat' split
  all_goals rfl

/-- With no ASK target, and where none may be asked, nothing is renewed. -/
theorem askUpdate_idle {s : State} (h : s.ptab.mayAsk = false) (ht : s.ptab.askTarget = none) : askUpdate s = s := by
  simp [askUpdate, h, ht]

theorem changeIdentity_sid (new : IdState) (s : State) : (changeIdentity new s).sid = { s.sid with st := new } := by
  simp [changeIdentity]

/-- The peer table takes the identity state, and its slots stay (R106). -/
theorem changeIdentity_ptab (new : IdState) (s : State) :
    (changeIdentity new s).ptab.heldId = new ∧ (changeIdentity new s).ptab.slots = s.ptab.slots := by
  simp only [changeIdentity, handEvents_frame]
  rw [askUpdate_ptab]
  exact ⟨rfl, rfl⟩

/-- Outside RUN a change of identity state moves the ASK slot alone of the signalling (R74). -/
theorem changeIdentity_slc {s : State} (new : IdState) (h : s.sid.st ≠ .run) :
    (changeIdentity new s).slc = { s.slc with ask := (changeIdentity new s).slc.ask } := by
  simp only [changeIdentity, handEvents_frame]
  rw [askUpdate_slc]
  simp [h]

/-- The event unit takes the change (R106). -/
theorem changeIdentity_latchedIfSet {k : Nat} {s : State} (new : IdState) (h : s.evu.LatchedIfSet k) :
    (changeIdentity new s).evu.LatchedIfSet k := by
  simp only [changeIdentity, handEvents_evu, askUpdate_frame]
  exact Evu.LatchedIfSet.take h _ _

/-! ### The end of loading -/

theorem eventsStart_latchedIfSet {k : Nat} {x : State} (p : Params) (h : x.evu.LatchedIfSet k) :
    (eventsStart p x).evu.LatchedIfSet k :=
  Evu.LatchedIfSet.take (e := { x.evu with mask := p.faultMask }) h _ _

theorem gainsStart_evu (p : Params) (x : State) : (gainsStart p x).evu = x.evu := by simp

theorem listenStart_slc {s : State} (h : s.sid.st ≠ .run) (ht : s.ptab.askTarget = none) : (listenStart s).slc = s.slc := by
  simp only [listenStart, changeIdentity, handEvents_frame]
  rw [askUpdate_idle (by simp [Ptab.mayAsk]) (by simpa using ht)]
  simp [h]

/-- The state in which the last hand-offs of the end of loading find the part. -/
def loadingTaken (p : Params) (s : State) : State :=
  eventsStart p (gainsStart p (listenStart ((((s.setCsto { s.csto with loaded := some p }).setTmon (s.tmon.load p)).setLest
    (s.lest.thermal p.chars (s.tmon.load p).tf)).setSseq (s.sseq.load p (s.tmon.load p).tfault))))

theorem endOfLoading_eq (p : Params) (s : State) : endOfLoading p s = settle (loadingTaken p s) := rfl

theorem loadingTaken_tge (p : Params) (s : State) :
    (loadingTaken p s).tge = { s.tge with applied := Rgb.all (16 * p.headroom) } := by
  simp [loadingTaken, gainsStart]

theorem loadingTaken_drvp (p : Params) (s : State) :
    (loadingTaken p s).drvp = s.drvp.arrive (Rgb.all (16 * p.headroom)) := by
  simp [loadingTaken, gainsStart]

theorem loadingTaken_sid (p : Params) (s : State) :
    (loadingTaken p s).sid = { s.sid with st := .listen, listen := some 0 } := by
  simp [loadingTaken, listenStart, changeIdentity_sid]

theorem loadingTaken_heldId (p : Params) (s : State) : (loadingTaken p s).ptab.heldId = .listen := by
  simp [loadingTaken, listenStart, changeIdentity_ptab]

theorem loadingTaken_sseq (p : Params) (s : State) : (loadingTaken p s).sseq = s.sseq.load p (s.tmon.load p).tfault := by
  simp [loadingTaken]

theorem loadingTaken_lest (p : Params) (s : State) : (loadingTaken p s).lest = s.lest.thermal p.chars (s.tmon.load p).tf := by
  simp [loadingTaken]

/-- The event unit has the loaded mask, and SET_DEFAULT has pulsed (R179). -/
theorem loadingTaken_evu (p : Params) (s : State) :
    (loadingTaken p s).evu.mask = p.faultMask ∧
      (p.setDefault = true → (loadingTaken p s).evu.latched.getLsbD 5 = true) := by
  simp only [loadingTaken, eventsStart, handEvents_evu, State.setEvu_evu]
  refine ⟨rfl, fun h => ?_⟩
  rw [if_pos h]
  exact (Evu.take_pulses (by decide)).1

theorem loadingTaken_latchedIfSet {k : Nat} {s : State} (p : Params) (h : s.evu.LatchedIfSet k) :
    (loadingTaken p s).evu.LatchedIfSet k := by
  refine eventsStart_latchedIfSet p ?_
  rw [gainsStart_evu]
  exact changeIdentity_latchedIfSet _ h

theorem Tmon.load_eq (m : Tmon) (p : Params) :
    if m.tfault then m.load p = m
    else TestedAs p m (m.load p) ∧ (m.load p).tf = m.tf := by
  unfold Tmon.load
  split
  · rfl
  · exact ⟨(m.test_tested p).2, rfl⟩

theorem Tmon.load_keeps (m : Tmon) (p : Params) : (m.load p).tf = m.tf ∧ (m.load p).tfault = m.tfault := by
  unfold Tmon.load
  split
  · exact ⟨rfl, rfl⟩
  · exact ⟨rfl, rfl⟩

theorem endOfLoading_onlyChanges (p : Params) (s : State) :
    OnlyChanges [.csto, .tmon, .lest, .sseq, .sid, .slc, .ptab, .tge, .drvp, .evu] s (endOfLoading p s) := fun b hb => by
  cases b <;> simp_all [SameBlock]

/-- Settles O6: block by block what the loaded copy gives, and after it the one hand-off of flags, estimates and events. -/
theorem loadingStartsEveryBlock : Obligations.LoadingStartsEveryBlock := by
  unfold Obligations.LoadingStartsEveryBlock
  rintro s p hlive hnone rfl
  generalize hp : loadParams s.csto.array = p
  have hx : exec .endOfLoading s = .next (endOfLoading p s) := by
    refine (whenLive_of_live hlive).trans ?_
    simp [hnone, hp]
  have hcsto := endOfLoading_csto p s
  have hloaded : (loadingTaken p s).csto.loaded = some p := by simp [loadingTaken]
  obtain ⟨htf, hfault⟩ := s.tmon.load_keeps p
  have hlest := settle_lest (loadingTaken p s)
  have hseq := settle_sseq (loadingTaken p s)
  have happlied := settle_applied (loadingTaken p s)
  have hevu := settle_evu (loadingTaken p s)
  have huncal : (endOfLoading p s).evu.raw.getLsbD 4 = p.uncal := by
    rw [endOfLoading_eq, settle_raw, conditions_uncal, ← endOfLoading_eq, hcsto]
    rfl
  rw [loadingTaken_lest, htf, ← endOfLoading_eq] at hlest
  rw [loadingTaken_sseq, hfault, ← endOfLoading_eq] at hseq
  rw [loadingTaken_tge, ← endOfLoading_eq] at happlied
  refine ⟨endOfLoading p s, hx, hcsto, ?tmon, ?f, ?a, ?l, ?flags, ?sseq, ?sid, ?held, happlied, ?drvp, ?engine, ?mask, ?raw,
    huncal, ?slc, ?default, ?latched, endOfLoading_onlyChanges p s⟩
  case tmon => rw [endOfLoading_tmon]; exact s.tmon.load_eq p
  case f => rw [hlest]; rfl
  case a => rw [hlest]; rfl
  case l => rw [hlest]; exact ⟨_, rfl, rfl⟩
  case flags => rw [hlest]
  case sseq =>
    rw [hseq, Sseq.load]
    split
    · exact ⟨rfl, rfl, rfl⟩
    · exact ⟨rfl, rfl, rfl, rfl, rfl, rfl⟩
  case sid => rw [endOfLoading_eq, settle_sid, loadingTaken_sid]
  case held => rw [endOfLoading_eq, settle_ptab, loadingTaken_heldId]
  case drvp => rw [happlied, endOfLoading_eq, settle_drvp, loadingTaken_drvp]
  case engine =>
    rw [endOfLoading_eq]
    refine settle_engineWorks hloaded fun h => ?_
    rw [loadingTaken_tge]
    exact Tge.recompute_with_applied _ h
  case mask => rw [endOfLoading_eq, hevu, Evu.take_mask]; exact (loadingTaken_evu p s).1
  case raw => rw [endOfLoading_eq]; exact settle_raw _
  case slc =>
    intro hst ht
    have hnotrun : s.sid.st ≠ .run := by simp [hst]
    have hslc : (loadingTaken p s).slc = s.slc := by
      simp only [loadingTaken, eventsStart_frame, gainsStart_frame]
      exact listenStart_slc hnotrun ht
    rcases settle_slc (loadingTaken p s) with h | h
    · exact h.trans hslc
    · rw [loadingTaken_sid, earlyRequest_notRun (by simp), hslc] at h
      exact h
  case default =>
    intro hd
    rw [endOfLoading_eq, hevu]
    exact (Evu.take_keeps _ _ _ 5).1 ((loadingTaken_evu p s).2 hd)
  case latched =>
    intro hu hr
    have hk := loadingTaken_latchedIfSet p (Evu.latchedIfSet_of_clear hr)
    rw [endOfLoading_eq, hevu] at huncal ⊢
    exact hk.take _ _ (huncal.trans hu)

end Sys2Proof.Machine
end

section
/-! SUPPORT. A tick at its five blocks: the claim from the seed, the peer table, the engine: O8. -/

namespace Sys2Proof.Machine

/-! ### A claim from the seed -/

theorem enterUnaddressed_sid (s : State) :
    (enterUnaddressed s).sid = { s.sid with st := .unaddressed, candidate := none, search := none } := by
  simp [enterUnaddressed, changeIdentity_sid]

theorem enterUnaddressed_slots (s : State) : (enterUnaddressed s).ptab.slots = s.ptab.slots := by
  rw [enterUnaddressed, (changeIdentity_ptab _ _).2]
  simp

theorem enterUnaddressed_slc {s : State} (h : s.sid.st ≠ .run) :
    (enterUnaddressed s).slc = { s.slc with
      ask := (enterUnaddressed s).slc.ask, stake := s.slc.stake.withdraw (s.slc.onLine .stake) } := by
  rw [enterUnaddressed, changeIdentity_slc _ (by simpa using h)]
  rfl

theorem enterUnaddressed_latchedIfSet {k : Nat} {s : State} (h : s.evu.LatchedIfSet k) :
    (enterUnaddressed s).evu.LatchedIfSet k := changeIdentity_latchedIfSet _ h

/-- In ACTIVE a choice that finds a slot stakes it (R93, R94). -/
theorem chooseCandidate_found {s : State} {start c : Addr} {all : Bool} (hl : s.fc.link = .active)
    (hc : s.ptab.firstFree start all = some c) :
    chooseCandidate start all s = (s.setSid { s.sid with candidate := some c, search := none }).setSlc
      (s.slc.fillStake { target := c, mode := .fresh, uid := s.sid.uid }) := by
  simp [chooseCandidate, hl, hc]

/-- In ACTIVE a choice that finds none ends the claim (R93, R105). -/
theorem chooseCandidate_notFound {s : State} {start : Addr} {all : Bool} (hl : s.fc.link = .active)
    (hc : s.ptab.firstFree start all = none) : chooseCandidate start all s = enterUnaddressed s := by
  simp [chooseCandidate, hl, hc]

/-- Outside ACTIVE a choice waits (R93). -/
theorem chooseCandidate_waits {s : State} {start : Addr} {all : Bool} (hl : s.fc.link ≠ .active) :
    chooseCandidate start all s = withdrawStake (s.setSid { s.sid with candidate := none, search := some (start, all) }) :=
  if_neg hl

/-- What a choice outside RUN leaves: the peer slots, the signalling but for STAKE and ASK slot, an entry latched where it is set;
and it ends where it was or in UNADDRESSED. -/
theorem chooseCandidate_keeps {s : State} (start : Addr) (all : Bool) (h : s.sid.st ≠ .run) :
    (chooseCandidate start all s).ptab.slots = s.ptab.slots ∧
      (chooseCandidate start all s).slc = { s.slc with
        stake := (chooseCandidate start all s).slc.stake, ask := (chooseCandidate start all s).slc.ask } ∧
      (∀ k, s.evu.LatchedIfSet k → (chooseCandidate start all s).evu.LatchedIfSet k) ∧
      ((chooseCandidate start all s).sid.st = s.sid.st ∨ (chooseCandidate start all s).sid.st = .unaddressed) := by
  by_cases hl : s.fc.link = .active
  · cases hc : s.ptab.firstFree start all with
    | some c => rw [chooseCandidate_found hl hc]; exact ⟨rfl, rfl, fun _ hk => hk, .inl rfl⟩
    | none =>
      rw [chooseCandidate_notFound hl hc, enterUnaddressed_slots, enterUnaddressed_sid, enterUnaddressed_slc h]
      exact ⟨rfl, rfl, fun _ hk => enterUnaddressed_latchedIfSet hk, .inr rfl⟩
  · rw [chooseCandidate_waits hl]
    exact ⟨rfl, rfl, fun _ hk => hk, .inl rfl⟩

/-- The state in which a claim from the seed makes its choice (R92, R105). -/
def claimEntered (s : State) : State :=
  changeIdentity .claiming (s.setSid { s.sid with attempts := 0, candidate := none, listen := none, emptied := false })

theorem claimFromSeed_eq (s : State) : claimFromSeed s = chooseCandidate (seedOf s.sid.uid) true (claimEntered s) := rfl

theorem claimEntered_sid (s : State) : (claimEntered s).sid =
    { s.sid with st := .claiming, attempts := 0, candidate := none, listen := none, emptied := false } := by
  simp [claimEntered, changeIdentity_sid]

theorem claimEntered_slots (s : State) : (claimEntered s).ptab.slots = s.ptab.slots := by
  rw [claimEntered, (changeIdentity_ptab _ _).2]
  rfl

theorem claimEntered_slc {s : State} (h : s.sid.st ≠ .run) :
    (claimEntered s).slc = { s.slc with ask := (claimEntered s).slc.ask } :=
  changeIdentity_slc (s := s.setSid { s.sid with attempts := 0, candidate := none, listen := none, emptied := false }) _ h

theorem claimEntered_link (s : State) : (claimEntered s).fc = s.fc := by simp [claimEntered]

theorem claimFromSeed_keeps {s : State} (h : s.sid.st ≠ .run) :
    (claimFromSeed s).ptab.slots = s.ptab.slots ∧
      (claimFromSeed s).slc = { s.slc with stake := (claimFromSeed s).slc.stake, ask := (claimFromSeed s).slc.ask } ∧
      (∀ k, s.evu.LatchedIfSet k → (claimFromSeed s).evu.LatchedIfSet k) ∧
      ((claimFromSeed s).sid.st = .claiming ∨ (claimFromSeed s).sid.st = .unaddressed) := by
  have hst : (claimEntered s).sid.st ≠ .run := by simp [claimEntered_sid]
  obtain ⟨hslots, hslc, hlatched, hends⟩ := chooseCandidate_keeps (seedOf s.sid.uid) true hst
  rw [← claimFromSeed_eq] at hslots hslc hlatched hends
  rw [claimEntered_sid] at hends
  refine ⟨hslots.trans (claimEntered_slots s), ?_, fun k hk => hlatched k (changeIdentity_latchedIfSet _ hk), hends⟩
  rw [hslc, claimEntered_slc h]

/-- The first EMPTY slot of all 48 from a start is the one that a choice finds (R93). -/
theorem Ptab.firstFree_eq_some {t : Ptab} {start : Addr} {k : Nat} (hk : k < 48)
    (he : t.slots.get (addrAfter start k) = .empty) (hb : ∀ j, j < k → t.slots.get (addrAfter start j) ≠ .empty) :
    t.firstFree start true = some (addrAfter start k) := by
  have hfind : (List.range 48).find? (fun j => decide (t.slots.get (addrAfter start j) = .empty)) = some k :=
    List.find?_range_eq_some.mpr ⟨by simpa using he, List.mem_range.mpr hk, fun j hj => by simpa using hb j hj⟩
  simp only [Ptab.firstFree, searchOrder, if_true, List.find?_map, Function.comp_def]
  rw [hfind]
  rfl

theorem Ptab.firstFree_eq_none {t : Ptab} (start : Addr) (all : Bool) (h : ∀ a : Addr, t.slots.get a ≠ .empty) :
    t.firstFree start all = none := List.find?_eq_none.mpr fun a _ => by simpa using h a

/-- A claim from the seed, with an empty STAKE slot (R92 to R94, R105). -/
theorem claimFromSeed_claims {s y : State} (hfc : y.fc = s.fc) (huid : y.sid.uid = s.sid.uid) (hst : y.sid.st ≠ .run)
    (hstake : y.slc.stake = .empty) : ClaimsFromSeed s (claimFromSeed y) := by
  have hslots := claimEntered_slots y
  have hsid := claimEntered_sid y
  have hempty : (claimEntered y).slc.stake = .empty := by rw [claimEntered_slc hst]; exact hstake
  have hfc' : (claimEntered y).fc = s.fc := (claimEntered_link y).trans hfc
  unfold ClaimsFromSeed
  rw [(claimFromSeed_keeps hst).1, ← huid, claimFromSeed_eq, ← hslots]
  by_cases hl : s.fc.link = .active
  · have hl' : (claimEntered y).fc.link = .active := by rw [hfc', hl]
    cases hc : (claimEntered y).ptab.firstFree (seedOf y.sid.uid) true with
    | some c =>
      rw [chooseCandidate_found hl' hc]
      refine ⟨congrArg Sid.attempts hsid, congrArg Sid.listen hsid,
        fun _ => ⟨fun k hk he hb => ?_, fun hall => ?_⟩, fun h => absurd hl h⟩
      · obtain rfl : c = addrAfter (seedOf y.sid.uid) k := Option.some.inj (hc.symm.trans (Ptab.firstFree_eq_some hk he hb))
        exact ⟨congrArg Sid.st hsid, rfl, by simp [Slc.fillStake, hempty, OutSlot.fill_empty, hsid]⟩
      · rw [Ptab.firstFree_eq_none _ _ hall] at hc
        cases hc
    | none =>
      rw [chooseCandidate_notFound hl' hc, enterUnaddressed_sid]
      refine ⟨congrArg Sid.attempts hsid, congrArg Sid.listen hsid,
        fun _ => ⟨fun k hk he hb => ?_, fun _ => ⟨rfl, rfl⟩⟩, fun h => absurd hl h⟩
      rw [Ptab.firstFree_eq_some hk he hb] at hc
      cases hc
  · have hl' : (claimEntered y).fc.link ≠ .active := by rw [hfc']; exact hl
    rw [chooseCandidate_waits hl']
    refine ⟨congrArg Sid.attempts hsid, congrArg Sid.listen hsid, fun h => absurd h hl,
      fun _ => ⟨congrArg Sid.st hsid, rfl, rfl, ?_⟩⟩
    simp [withdrawStake, Slc.withdrawStake, hempty, OutSlot.withdraw, OutSlot.empty]

/-- Of what follows a claim, its statement reads identity, the STAKE slot and which slots are EMPTY. -/
theorem ClaimsFromSeed.congr {s u v : State} (h : ClaimsFromSeed s u) (hsid : v.sid = u.sid) (hstake : v.slc.stake = u.slc.stake)
    (hslots : ∀ a : Addr, v.ptab.slots.get a = .empty ↔ u.ptab.slots.get a = .empty) : ClaimsFromSeed s v := by
  unfold ClaimsFromSeed at h ⊢
  simpa only [hsid, hstake, ne_eq, hslots] using h

/-! ### A tick at the peer table -/

/-- A tick ages a slot and then makes both tests of R113 on it (R112). -/
theorem PeerSlot.ticked_eq (p : Params) (x : PeerSlot) :
    x.ticked p = ((x.age p.removalPoint).remove p.removalPoint).goStale p.stalePoint := by
  cases x with
  | empty | self => rfl
  | fresh => rfl
  | heard | stale =>
    dsimp only [PeerSlot.ticked, PeerSlot.age, PeerSlot.remove, Params.removalPoint]
    split_ifs
    · rfl
    · rfl

/-- Going STALE neither empties a slot nor fills one. -/
theorem PeerSlot.goStale_empty (n : Nat) (x : PeerSlot) : x.goStale n = .empty ↔ x = .empty := by
  cases x with
  | fresh lum flags d h =>
    simp only [PeerSlot.goStale]
    split
    · simp
    · simp
  | _ => simp [PeerSlot.goStale]

/-- A slot is removed exactly where the tests empty it (R113). -/
theorem PeerSlot.remove_ne_self (n : Nat) (x : PeerSlot) : x.remove n ≠ x ↔ x.remove n = .empty ∧ x ≠ .empty := by
  cases x with
  | heard h tries =>
    simp only [PeerSlot.remove]
    split
    · simp
    · simp
  | stale lum flags d h =>
    simp only [PeerSlot.remove]
    split
    · simp
    · simp
  | _ => simp [PeerSlot.remove]

theorem PeerSlot.age_empty (n : Nat) (x : PeerSlot) : x.age n = .empty ↔ x = .empty := by
  cases x <;> simp [PeerSlot.age]

/-- A slot turns EMPTY at a tick exactly where the removal changes the aged slot. -/
theorem PeerSlot.ticked_removes (p : Params) (x : PeerSlot) :
    (x.ticked p = .empty ∧ x ≠ .empty) ↔ (x.age p.removalPoint).remove p.removalPoint ≠ x.age p.removalPoint := by
  rw [PeerSlot.remove_ne_self, PeerSlot.ticked_eq, PeerSlot.goStale_empty, ne_eq, ne_eq, PeerSlot.age_empty]

/-- R113's removal has been made, and the ASK slot renewed where a slot has turned EMPTY (R121). -/
def slotsRemoved (p : Params) (s : State) : State :=
  if (s.ptab.updateAll (PeerSlot.remove p.removalPoint)).slots = s.ptab.slots then s
  else askUpdate (s.setPtab (s.ptab.updateAll (PeerSlot.remove p.removalPoint)))

theorem removeSlots_eq (w : Bool) (p : Params) (s : State) :
    removeSlots w p s =
      if (s.ptab.updateAll (PeerSlot.remove p.removalPoint)).slots = s.ptab.slots then takeHandOff (slotsRemoved p s)
      else handOverEmptied w (slotsRemoved p s) := by
  unfold removeSlots slotsRemoved
  dsimp only
  split
  · rfl
  · rfl

theorem slotsRemoved_keeps (p : Params) (s : State) :
    (slotsRemoved p s).fc = s.fc ∧ (slotsRemoved p s).sid = s.sid ∧ (slotsRemoved p s).evu = s.evu ∧
      (slotsRemoved p s).slc = { s.slc with ask := (slotsRemoved p s).slc.ask } ∧
      (slotsRemoved p s).ptab.slots = (s.ptab.updateAll (PeerSlot.remove p.removalPoint)).slots := by
  unfold slotsRemoved
  split
  next h => exact ⟨rfl, rfl, rfl, rfl, h.symm⟩
  next => exact ⟨by simp, by simp, by simp, askUpdate_slc _, by simp⟩

theorem slotsRemoved_get (p : Params) (s : State) (a : Addr) :
    (slotsRemoved p s).ptab.slots.get a = (s.ptab.slots.get a).remove p.removalPoint := by
  obtain ⟨-, -, -, -, hslots⟩ := slotsRemoved_keeps p s
  rw [hslots, Ptab.updateAll_get]

/-- Tables are the same where every slot is. -/
theorem slots_eq_iff {v w : Vector PeerSlot 48} : v = w ↔ ∀ a : Addr, v.get a = w.get a := by
  refine ⟨fun h a => by rw [h], fun h => Vector.ext fun i hi => h ⟨i, hi⟩⟩

/-- What R113's removal hands over, and where it goes (R105, R114, R119): outside UNADDRESSED nowhere; in UNADDRESSED a claim starts
where a hand-off was on its way, and where a slot has turned EMPTY a claim starts or the hand-off is on its way. -/
theorem removeSlots_handsOver (w : Bool) (p : Params) (s : State) :
    (s.sid.st ≠ .unaddressed → removeSlots w p s = slotsRemoved p s) ∧
    (s.sid.st = .unaddressed →
      (s.sid.emptied = true → removeSlots w p s = claimFromSeed (slotsRemoved p s)) ∧
      (s.sid.emptied = false →
        ((∃ a : Addr, (s.ptab.slots.get a).remove p.removalPoint ≠ s.ptab.slots.get a) →
          removeSlots w p s = claimFromSeed (slotsRemoved p s) ∨
            removeSlots w p s = (slotsRemoved p s).setSid { s.sid with emptied := true }) ∧
        ((∀ a : Addr, (s.ptab.slots.get a).remove p.removalPoint = s.ptab.slots.get a) →
          removeSlots w p s = slotsRemoved p s))) := by
  obtain ⟨-, hsid, -⟩ := slotsRemoved_keeps p s
  have hsame : (s.ptab.updateAll (PeerSlot.remove p.removalPoint)).slots = s.ptab.slots ↔
      ∀ a : Addr, (s.ptab.slots.get a).remove p.removalPoint = s.ptab.slots.get a := by
    simp only [slots_eq_iff, Ptab.updateAll_get]
  rw [removeSlots_eq]
  refine ⟨fun hst => ?_, fun hst => ⟨fun he => ?_, fun he => ⟨?_, fun hall => ?_⟩⟩⟩
  · have htake : takeHandOff (slotsRemoved p s) = slotsRemoved p s := by
      rw [takeHandOff_eq, if_neg (by simp [hsid, hst])]
    rw [htake, handOverEmptied_addressed (by rw [hsid]; exact hst), ite_self]
  · have htake : takeHandOff (slotsRemoved p s) = claimFromSeed (slotsRemoved p s) := by
      rw [takeHandOff_eq, if_pos (by simp [hsid, he, hst])]
    have hover : handOverEmptied w (slotsRemoved p s) = claimFromSeed (slotsRemoved p s) := by
      rw [handOverEmptied_unaddressed (by rw [hsid]; exact hst), if_neg (by simp [hsid, he])]
    rw [htake, hover, ite_self]
  · rintro ⟨a, ha⟩
    rw [if_neg fun h => ha (hsame.mp h a), handOverEmptied_unaddressed (by rw [hsid]; exact hst), hsid]
    split
    · exact .inr rfl
    · exact .inl rfl
  · rw [if_pos (hsame.mpr hall), takeHandOff_eq, if_neg (by simp [hsid, he])]

/-- The ways the removal can end: as it stands, with its hand-off on the way, or in a claim. -/
theorem removeSlots_cases (w : Bool) (p : Params) (s : State) :
    removeSlots w p s = slotsRemoved p s ∨
      s.sid.st = .unaddressed ∧ (removeSlots w p s = claimFromSeed (slotsRemoved p s) ∨
        removeSlots w p s = (slotsRemoved p s).setSid { s.sid with emptied := true }) := by
  obtain ⟨haddressed, hunaddressed⟩ := removeSlots_handsOver w p s
  by_cases hst : s.sid.st = .unaddressed
  · obtain ⟨hon, hoff⟩ := hunaddressed hst
    cases he : s.sid.emptied with
    | true => exact .inr ⟨hst, .inl (hon he)⟩
    | false =>
      obtain ⟨hsome, hnone⟩ := hoff he
      by_cases hall : ∀ a : Addr, (s.ptab.slots.get a).remove p.removalPoint = s.ptab.slots.get a
      · exact .inl (hnone hall)
      · exact .inr ⟨hst, hsome (not_forall.mp hall)⟩
  · exact .inl (haddressed hst)

/-- What the removal keeps wherever it goes: the slots are those removed, the signalling moves in STAKE and ASK slot alone,
identity changes its state from UNADDRESSED to CLAIMING at most, and an entry latched where it is set stays so. -/
theorem removeSlots_keeps (w : Bool) (p : Params) (s : State) :
    (∀ a : Addr, (removeSlots w p s).ptab.slots.get a = (s.ptab.slots.get a).remove p.removalPoint) ∧
      (removeSlots w p s).slc = { s.slc with
        stake := (removeSlots w p s).slc.stake, ask := (removeSlots w p s).slc.ask } ∧
      ((removeSlots w p s).sid.st = s.sid.st ∨ s.sid.st = .unaddressed ∧ (removeSlots w p s).sid.st = .claiming) ∧
      ∀ k, s.evu.LatchedIfSet k → (removeSlots w p s).evu.LatchedIfSet k := by
  obtain ⟨-, hsid, hevu, hslc, -⟩ := slotsRemoved_keeps p s
  have hget := slotsRemoved_get p s
  rcases removeSlots_cases w p s with h | ⟨hst, h | h⟩
  · rw [h]
    exact ⟨hget, by rw [hslc], .inl (by rw [hsid]), fun k hk => by rwa [hevu]⟩
  · have hnot : (slotsRemoved p s).sid.st ≠ .run := by simp [hsid, hst]
    obtain ⟨hslots', hslc', hlatched, hends⟩ := claimFromSeed_keeps hnot
    rw [h]
    exact ⟨fun a => by rw [hslots', hget], by rw [hslc', hslc],
      hends.elim (fun hc => .inr ⟨hst, hc⟩) fun hu => .inl (hu.trans hst.symm), fun k hk => hlatched k (by rwa [hevu])⟩
  · rw [h]
    exact ⟨hget, by rw [State.setSid_slc, hslc], .inl rfl, fun k hk => by rwa [State.setSid_evu, hevu]⟩

theorem tickPeers_eq {s : State} {p : Params} (w : Bool) (hp : s.csto.loaded = some p) :
    tickPeers w s = staleSlots p (removeSlots w p (agePeers p s)) := by simp only [tickPeers, hp]

theorem agePeers_get (p : Params) (s : State) (a : Addr) :
    (agePeers p s).ptab.slots.get a = (s.ptab.slots.get a).age p.removalPoint := by simp [agePeers]

theorem staleSlots_get (p : Params) (s : State) (a : Addr) :
    (staleSlots p s).ptab.slots.get a = (s.ptab.slots.get a).goStale p.stalePoint := by simp [staleSlots]

/-- What a tick keeps at the peer table's neighbours, and its slots (R112, R113). -/
theorem tickPeers_keeps {s : State} {p : Params} (w : Bool) (hp : s.csto.loaded = some p) :
    (∀ a : Addr, (tickPeers w s).ptab.slots.get a = (s.ptab.slots.get a).ticked p) ∧
      (tickPeers w s).slc = { s.slc with stake := (tickPeers w s).slc.stake, ask := (tickPeers w s).slc.ask } ∧
      ((tickPeers w s).sid.st = s.sid.st ∨ s.sid.st = .unaddressed ∧ (tickPeers w s).sid.st = .claiming) ∧
      ∀ k, s.evu.LatchedIfSet k → (tickPeers w s).evu.LatchedIfSet k := by
  obtain ⟨hget, hslc, hst, hlatched⟩ := removeSlots_keeps w p (agePeers p s)
  rw [tickPeers_eq w hp]
  refine ⟨fun a => ?_, ?_, by simpa using hst, by simpa using hlatched⟩
  · rw [staleSlots_get, hget, agePeers_get, PeerSlot.ticked_eq]
  · simp only [staleSlots_frame]
    rw [hslc]
    simp

/-- What a tick does to station identity: outside UNADDRESSED nothing; in UNADDRESSED R114's hand-off (R105, R119). -/
theorem tickPeers_identity {s : State} {p : Params} (w : Bool) (hp : s.csto.loaded = some p) :
    (s.sid.st ≠ .unaddressed → (tickPeers w s).sid = s.sid) ∧
    (s.sid.st = .unaddressed → s.slc.stake = .empty →
      (s.sid.emptied = true → ClaimsFromSeed s (tickPeers w s)) ∧
      (s.sid.emptied = false →
        ((∃ a : Addr, (s.ptab.slots.get a).ticked p = .empty ∧ s.ptab.slots.get a ≠ .empty) →
          ClaimsFromSeed s (tickPeers w s) ∨ (tickPeers w s).sid = { s.sid with emptied := true }) ∧
        ((∀ a : Addr, (s.ptab.slots.get a).ticked p = .empty → s.ptab.slots.get a = .empty) →
          (tickPeers w s).sid = s.sid))) := by
  obtain ⟨hfc, hsid, -, hslc, -⟩ := slotsRemoved_keeps p (agePeers p s)
  simp only [agePeers_frame] at hfc hsid hslc
  have hclaims (hst : s.sid.st = .unaddressed) (hstake : s.slc.stake = .empty)
      (h : removeSlots w p (agePeers p s) = claimFromSeed (slotsRemoved p (agePeers p s))) :
      ClaimsFromSeed s (tickPeers w s) := by
    have hc : ClaimsFromSeed s (removeSlots w p (agePeers p s)) := by
      rw [h]
      exact claimFromSeed_claims hfc (by rw [hsid]) (by simp [hsid, hst]) (by rw [hslc]; exact hstake)
    rw [tickPeers_eq w hp]
    exact hc.congr (by simp) (by simp) fun a => by rw [staleSlots_get, PeerSlot.goStale_empty]
  have hkept : (tickPeers w s).sid = (removeSlots w p (agePeers p s)).sid := by simp [tickPeers_eq w hp]
  obtain ⟨haddressed, hunaddressed⟩ := removeSlots_handsOver w p (agePeers p s)
  simp only [agePeers_frame, agePeers_get] at haddressed hunaddressed
  refine ⟨fun hst => by rw [hkept, haddressed hst, hsid], fun hst hstake => ?_⟩
  obtain ⟨hon, hoff⟩ := hunaddressed hst
  refine ⟨fun he => hclaims hst hstake (hon he), fun he => ⟨?_, fun hall => ?_⟩⟩
  · rintro ⟨a, ha⟩
    rcases (hoff he).1 ⟨a, (PeerSlot.ticked_removes p _).mp ha⟩ with h | h
    · exact .inl (hclaims hst hstake h)
    · exact .inr (by rw [hkept, h, State.setSid_sid])
  · have hnone (a : Addr) : ((s.ptab.slots.get a).age p.removalPoint).remove p.removalPoint =
        (s.ptab.slots.get a).age p.removalPoint := by
      by_contra hne
      obtain ⟨h, hn⟩ := (PeerSlot.ticked_removes p _).mpr hne
      exact hn (hall a h)
    rw [hkept, (hoff he).2 hnone, hsid]

/-! ### A tick at the engine -/

/-- One slew step is R137's. -/
theorem slewGain_slewsTo (slew : Nat) (crit : Bool) (goal g : Nat) :
    SlewsTo (slewStepOf slew crit goal g) goal g (slewGain slew crit goal g) := by
  unfold SlewsTo slewGain
  generalize slewStepOf slew crit goal g = step
  dsimp only
  split_ifs
  all_goals omega

/-- A slew moves the applied gains alone (R137). -/
theorem Tge.slew_fields (p : Params) (t : Tge) : t.slew p = { t with applied := (t.slew p).applied } := by
  unfold Tge.slew
  split
  · rfl
  · rfl

/-- The slew of an engine `e` that has the gains and CRIT of the state before. -/
theorem slewsToward_of_slew {p : Params} {e : Tge} {s u : State} (hc : e.crit = s.tge.crit) (ha : e.applied = s.tge.applied)
    (hu : u.tge.applied = (e.slew p).applied) : SlewsToward p e s u := by
  unfold SlewsToward
  rw [hu]
  cases hg : e.ceiled with
  | none => simp [Tge.slew, hg, ha]
  | some goal =>
    intro c
    have := slewGain_slewsTo p.slewStep s.tge.crit (goal.get c) (s.tge.applied.get c)
    simpa [Tge.slew, hg, ha, hc, slewStepOf] using this

/-- A notification is without effect, or brings a changed contribution and a recompute from it (R118, R127). -/
theorem Tge.notified_cases (p : Params) (peers : Vector (Option Entry) 48) (t : Tge) :
    t.notified p peers = t ∨
      { t with peers := peers } ≠ t ∧ t.notified p peers = ({ t with peers := peers } : Tge).recompute p := by
  unfold Tge.notified
  split
  next => exact .inl rfl
  next h => exact .inr ⟨h, rfl⟩

/-- A tick's engine: slewed as it stood, or after the recompute that a changed contribution brings (R139). -/
theorem tickEngine_tge {s : State} {p : Params} (f : Bool) (hp : s.csto.loaded = some p) :
    (tickEngine f s).tge = s.tge.slew p ∨
      { s.tge with peers := s.ptab.contributions } ≠ s.tge ∧
        (tickEngine f s).tge = (({ s.tge with peers := s.ptab.contributions } : Tge).recompute p).slew p := by
  simp only [tickEngine, hp, State.setDrvp_tge, State.setTge_tge]
  have hn := s.tge.notified_cases p s.ptab.contributions
  split
  next h =>
    rw [Bool.and_eq_true, bne_iff_ne] at h
    obtain ⟨hne, heq⟩ := hn.resolve_left h.1
    exact .inr ⟨hne, congrArg _ heq⟩
  next => exact .inl rfl

/-- A tick hands the changed gains to the driver port (R140). -/
theorem tickEngine_drvp {s : State} {p : Params} (f : Bool) (hp : s.csto.loaded = some p) :
    (tickEngine f s).drvp =
      if (tickEngine f s).tge.applied = s.tge.applied then s.drvp else s.drvp.arrive (tickEngine f s).tge.applied := by
  simp only [tickEngine, hp, State.setDrvp_tge, State.setTge_tge, State.setDrvp_drvp]

theorem tickEngine_inputs {s : State} {p : Params} (f : Bool) (hp : s.csto.loaded = some p) :
    (tickEngine f s).tge.own = s.tge.own ∧
      (s.tge.recompute p = s.tge → (tickEngine f s).tge.recompute p = (tickEngine f s).tge) := by
  rcases tickEngine_tge f hp with h | ⟨-, h⟩
  · rw [h]
    exact ⟨by rw [Tge.slew_fields], fun hs => Tge.slew_recompute p _ hs⟩
  · rw [h]
    exact ⟨by rw [Tge.slew_fields]; exact (Tge.recompute_inputs p _).1,
      fun _ => Tge.slew_recompute p _ (Tge.recompute_recompute p _)⟩

/-! ### A tick at all five blocks -/

theorem tickIn_blocks {s : State} {p : Params} (f w : Bool) (hp : s.csto.loaded = some p) :
    (tickIn f w s).ptab = (tickPeers w s).ptab ∧ (tickIn f w s).tge = (tickEngine f (tickPeers w s)).tge ∧
      (tickIn f w s).drvp = (tickEngine f (tickPeers w s)).drvp ∧ (tickIn f w s).sseq = s.sseq.tick p ∧
      (tickIn f w s).slc = (tickPeers w s).slc.tick (tickPeers w s).sid.st ∧
      (tickIn f w s).sid = (tickPeers w s).sid.tick p.period ∧ (tickIn f w s).evu = (tickPeers w s).evu := by
  simp [tickIn, tickSseq, State.period, hp]

/-- A tick in orders that the free values give, with a place of them used (logs 33, 37). -/
theorem tick_eq (s : State) : ∃ f w n, tick s = (tickIn f w s).setFreeReads n := by
  refine ⟨Config.staleFirst s.freeReads, Config.handOffWaits s.freeReads, ?_⟩
  unfold tick countTick
  split
  · exact ⟨_, rfl⟩
  · exact ⟨_, (State.setFreeReads_self _).symm⟩

theorem Sid.tick_notListen {d : Sid} (h : d.st ≠ .listen) (n : Nat) : d.tick n = d := by simp [Sid.tick, h]

/-- A tick has reached its blocks, in whichever orders, once its hand-off of flags has been made. -/
theorem tickIn_reached {s : State} {p : Params} (f w : Bool) (n : Nat) (hp : s.csto.loaded = some p) :
    TickReached p s (settle ((tickIn f w s).setFreeReads n)) := by
  obtain ⟨hptab, htge, hdrvp, hsseq, hslc, hsid, -⟩ := tickIn_blocks f w hp
  obtain ⟨hslots, hpeersSlc, hst, -⟩ := tickPeers_keeps w hp
  obtain ⟨haddressed, hunaddressed⟩ := tickPeers_identity w hp
  have hpy : (tickPeers w s).csto.loaded = some p := by simpa using hp
  have htgey : (tickPeers w s).tge = s.tge := by simp
  have hrun : (tickPeers w s).sid.st = .run ↔ s.sid.st = .run := by
    rcases hst with h | ⟨h, h'⟩
    · rw [h]
    · simp [h, h']
  have hlisten : s.sid.st ≠ .listen → (tickPeers w s).sid.st ≠ .listen := fun h => by
    rcases hst with h' | ⟨-, h'⟩
    · rwa [h']
    · simp [h']
  have hsettled := settle_slc_fields ((tickIn f w s).setFreeReads n)
  have happlied := settle_applied ((tickIn f w s).setFreeReads n)
  rw [State.setFreeReads_slc, hslc] at hsettled
  rw [State.setFreeReads_tge, htge] at happlied
  obtain ⟨hown, hworks⟩ := tickEngine_inputs f hpy
  rw [htgey] at hown hworks
  unfold TickReached
  simp only [settle_sid, settle_ptab, settle_sseq, settle_drvp, State.setFreeReads_sid, State.setFreeReads_ptab,
    State.setFreeReads_sseq, State.setFreeReads_drvp, hptab, hsid, hsseq]
  refine ⟨hslots, fun hun hstake => ?identity, ?works, ?slews, ?port, rfl, rfl, ?report, ?spacing, ?evaluated, fun hne => ?sid⟩
  case identity =>
    have hkeep : (tickPeers w s).sid.tick p.period = (tickPeers w s).sid := Sid.tick_notListen (hlisten (by simp [hun])) _
    obtain ⟨hon, hoff⟩ := hunaddressed hun hstake
    have hcongr (h : ClaimsFromSeed s (tickPeers w s)) : ClaimsFromSeed s (settle ((tickIn f w s).setFreeReads n)) :=
      h.congr (by rw [settle_sid, State.setFreeReads_sid, hsid, hkeep]) (by rw [hsettled]; rfl)
        fun a => by rw [settle_ptab, State.setFreeReads_ptab, hptab]
    rw [hkeep]
    exact ⟨fun he => hcongr (hon he), fun he => ⟨fun h => ((hoff he).1 h).imp_left hcongr, (hoff he).2⟩⟩
  case works =>
    refine settle_engineWorks (by simpa using hp) fun h => ?_
    rw [State.setFreeReads_tge, htge]
    exact hworks h
  case slews =>
    unfold TickSlews
    rw [settle_ptab, State.setFreeReads_ptab, hptab]
    rcases tickEngine_tge f hpy with h | ⟨hne, h⟩
    · rw [htgey] at h
      exact .inl (slewsToward_of_slew rfl rfl (by rw [happlied, h]))
    · rw [htgey] at h hne
      obtain ⟨-, -, hcrit, happ⟩ := Tge.recompute_inputs p { s.tge with peers := (tickPeers w s).ptab.contributions }
      exact .inr ⟨hne, slewsToward_of_slew hcrit happ (by rw [happlied, h])⟩
  case port =>
    rw [happlied, hdrvp, tickEngine_drvp f hpy, htgey]
    simp
  case report =>
    rw [hsettled]
    simp only [Slc.tick, hrun]
    rw [hpeersSlc]
  case spacing =>
    rw [hsettled]
    simp only [Slc.tick]
    rw [hpeersSlc]
  case evaluated =>
    refine settle_evaluated (by simp) (by rw [State.setFreeReads_tge, htge, hown]) (by simp) ?_ ?_
    · rw [State.setFreeReads_sid, hsid]
      exact hrun
    · rw [State.setFreeReads_slc, hslc]
      simp only [Slc.tick]
      rw [hpeersSlc]
  case sid =>
    rw [haddressed hne]
    rfl

theorem tick_reached {s : State} {p : Params} (hp : s.csto.loaded = some p) : TickReached p s (settle (tick s)) := by
  obtain ⟨f, w, n, h⟩ := tick_eq s
  rw [h]
  exact tickIn_reached f w n hp

theorem tick_latchedIfSet {k : Nat} {s : State} {p : Params} (hp : s.csto.loaded = some p) (hk : s.evu.LatchedIfSet k) :
    (tick s).evu.LatchedIfSet k := by
  obtain ⟨f, w, n, h⟩ := tick_eq s
  obtain ⟨-, -, -, -, -, -, hevu⟩ := tickIn_blocks f w hp
  obtain ⟨-, -, -, hlatched⟩ := tickPeers_keeps w hp
  rw [h, State.setFreeReads_evu, hevu]
  exact hlatched k hk

/-- In LOAD a tick counts the spacing alone (R4, R76). -/
theorem tick_loading {s : State} (hn : s.csto.loaded = none) (hst : s.sid.st = .load) :
    tick s = s.setSlc { s.slc with spacing := min 4 (s.slc.spacing + 1) } := by
  have hslc : s.slc.tick s.sid.st = { s.slc with spacing := min 4 (s.slc.spacing + 1) } := by simp [Slc.tick, hst]
  have hpeers (w : Bool) : tickPeers w s = s := by simp [tickPeers, hn]
  have hengine (f : Bool) : tickEngine f s = s := by simp [tickEngine, hn]
  have hsseq : tickSseq s = s := by simp [tickSseq, hn]
  simp only [tick, tickIn, hpeers, hengine, hsseq, hslc, Sid.tick_notListen (show s.sid.st ≠ .listen by simp [hst])]
  simp [countTick, hn]
  rfl

/-- The NOSYNC entry of the raw set after a tick with the timebase at `x` (R2, R3, R173). -/
theorem settle_tick_nosync (s : State) (x : Ftb) : (settle (tick (s.setFtb x))).evu.raw.getLsbD 8 = x.nosync := by
  rw [settle_raw, conditions_nosync]
  simp

/-- What a tick in LOAD changes, with the timebase at `x`. -/
theorem settle_tick_loading {s : State} (x : Ftb) (hn : s.csto.loaded = none) (hst : s.sid.st = .load) :
    (settle (tick (s.setFtb x))).slc = { s.slc with spacing := min 4 (s.slc.spacing + 1) } ∧
      OnlyChanges [.ftb, .slc, .lest, .evu] s (settle (tick (s.setFtb x))) := by
  have ht := tick_loading (s := s.setFtb x) hn hst
  have hn' : (tick (s.setFtb x)).csto.loaded = none := by simpa using hn
  refine ⟨by rw [(settle_unloaded (.inl hn')).2, ht]; rfl, fun b hb => ?_⟩
  have htge := settle_tge_unloaded (.inl hn')
  rw [ht] at htge ⊢
  cases b <;> simp_all [SameBlock]

/-- The blocks that a tick moves, with the timebase at `x`. -/
theorem settle_tick_onlyChanges (s : State) (x : Ftb) :
    OnlyChanges [.ftb, .ptab, .tge, .drvp, .sseq, .slc, .sid, .lest, .evu, .freeReads] s (settle (tick (s.setFtb x))) :=
  fun b hb => by cases b <;> simp_all [SameBlock]

/-- An edge is accepted from 4 ms after the last accepted one on, and as the first since reset (R1). -/
theorem Ftb.accepts_eq_true {f : Ftb} {t : Nat} (h : ∀ e, f.lastEdge = some e → e + 4000 ≤ t) : f.accepts t = true := by
  unfold Ftb.accepts
  split
  · rfl
  next e he =>
    have := h e he
    exact decide_eq_true (by omega)

theorem Ftb.accepts_eq_false {f : Ftb} {t e : Nat} (he : f.lastEdge = some e) (hlo : e ≤ t) (hhi : t < e + 4000) :
    f.accepts t = false := by
  simp only [Ftb.accepts, he]
  exact decide_eq_false (by omega)

theorem exec_fsyncEdge_accepted {s : State} {t : Nat} (hlive : s.live) (h : ∀ e, s.ftb.lastEdge = some e → e + 4000 ≤ t) :
    exec (.fsyncEdge t) s =
      .next (settle (tick (s.setFtb { lastEdge := some t, syncTimer := some (t + 40000), nosync := false }))) :=
  (whenLive_of_live hlive).trans (congrArg Host.Outcome.next (if_pos (Ftb.accepts_eq_true h)))

theorem exec_substituteTick_running {s : State} {e : Nat} (hlive : s.live) (h : s.ftb.syncTimer = some e) :
    exec .substituteTick s =
      .next (settle (tick (s.setFtb { lastEdge := s.ftb.lastEdge, syncTimer := some (e + 20000), nosync := true }))) := by
  refine (whenLive_of_live hlive).trans (congrArg Host.Outcome.next ?_)
  simp only [substituteTick, h]
  rfl

/-- Settles O8: accepted edge, glitch and expiry, each a tick (`tick_reached`) or nothing, and the same in LOAD. -/
theorem edgesAndExpiriesTick : Obligations.EdgesAndExpiriesTick := by
  unfold Obligations.EdgesAndExpiriesTick
  intro s
  refine ⟨fun hheld t => whenLive_of_held hheld, fun hlive => ⟨fun t ht p hp => ?edge, fun t e he hlo hhi => ?glitch,
    fun e p he hp => ?expiry, fun hn hst => ⟨fun t ht => ?edgeInLoad, fun e he => ?expiryInLoad⟩⟩⟩
  case edge =>
    exact ⟨_, exec_fsyncEdge_accepted hlive ht, by simp, tick_reached (s := s.setFtb _) hp, settle_tick_nosync s _,
      settle_tick_onlyChanges s _⟩
  case glitch =>
    exact (whenLive_of_live hlive).trans (congrArg Host.Outcome.next (if_neg (by simp [Ftb.accepts_eq_false he hlo hhi])))
  case expiry =>
    refine ⟨_, exec_substituteTick_running hlive he, by simp, tick_reached (s := s.setFtb _) hp, settle_tick_nosync s _,
      fun hr => ?_, settle_tick_onlyChanges s _⟩
    have hk := tick_latchedIfSet (s := s.setFtb { lastEdge := s.ftb.lastEdge, syncTimer := some (e + 20000), nosync := true })
      hp (Evu.latchedIfSet_of_clear hr)
    have hset := settle_tick_nosync s { lastEdge := s.ftb.lastEdge, syncTimer := some (e + 20000), nosync := true }
    rw [settle_evu] at hset ⊢
    exact hk.take _ _ hset
  case edgeInLoad =>
    obtain ⟨hslc, honly⟩ := settle_tick_loading { lastEdge := some t, syncTimer := some (t + 40000), nosync := false } hn hst
    exact ⟨_, exec_fsyncEdge_accepted hlive ht, by simp, hslc, settle_tick_nosync s _, honly⟩
  case expiryInLoad =>
    obtain ⟨hslc, honly⟩ :=
      settle_tick_loading { lastEdge := s.ftb.lastEdge, syncTimer := some (e + 20000), nosync := true } hn hst
    exact ⟨_, exec_substituteTick_running hlive he, by simp, hslc, settle_tick_nosync s _, honly⟩

end Sys2Proof.Machine
end

section
/-! SUPPORT. The estimator's arithmetic: the thermal factor (O14), aging factors and estimates in their ranges. -/

namespace Sys2Proof.Machine

/-! ### The thermal factor -/

/-- The value between two curve points, `r` 160ths of the way from the first, its division truncated toward zero (R19). -/
def interpolated (lo hi r : Nat) : Int := (lo : Int) + (((hi : Int) - (lo : Int)) * (r : Int)).tdiv 160

theorem interpolated_rising {lo hi : Nat} (h : lo ≤ hi) (r : Nat) :
    interpolated lo hi r = ((lo + (hi - lo) * r / 160 : Nat) : Int) := by
  obtain ⟨d, rfl⟩ := Nat.exists_eq_add_of_le h
  have e : (((lo + d : Nat) : Int) - (lo : Int)) * (r : Int) = ((d * r : Nat) : Int) := by push_cast; ring
  rw [interpolated, e, Nat.add_sub_cancel_left, Nat.cast_add]
  rfl

theorem interpolated_falling {lo hi : Nat} (h : hi ≤ lo) (r : Nat) :
    interpolated lo hi r = (lo : Int) - (((lo - hi) * r / 160 : Nat) : Int) := by
  obtain ⟨d, rfl⟩ := Nat.exists_eq_add_of_le h
  have e : ((hi : Int) - ((hi + d : Nat) : Int)) * (r : Int) = -((d * r : Nat) : Int) := by push_cast; ring
  rw [interpolated, e, Nat.add_sub_cancel_left, Int.neg_tdiv, ← Int.sub_eq_add_neg]
  rfl

/-- The interpolated value stays in the closed span of the two points (R19). -/
theorem interpolated_between (lo hi : Nat) {r : Nat} (hr : r ≤ 160) :
    ((min lo hi : Nat) : Int) ≤ interpolated lo hi r ∧ interpolated lo hi r ≤ ((max lo hi : Nat) : Int) := by
  have hspan (d : Nat) : d * r / 160 ≤ d :=
    Nat.div_le_of_le_mul (by rw [Nat.mul_comm]; exact Nat.mul_le_mul_right d hr)
  rcases Nat.le_total lo hi with h | h
  · have := hspan (hi - lo)
    rw [interpolated_rising h]
    omega
  · have := hspan (lo - hi)
    rw [interpolated_falling h]
    omega

@[simp] theorem interpolated_zero (lo hi : Nat) : interpolated lo hi 0 = lo := by simp [interpolated]

@[simp] theorem interpolated_full (lo hi : Nat) : interpolated lo hi 160 = hi := by simp [interpolated]

/-- The four steps of R19, with the place in the curve that they take. -/
theorem thermalFactor_steps (curve : List Nat) (tf : Int) :
    ∃ u i r : Nat, (u : Int) = max 0 (min 1280 (tf + 160)) ∧ i = min (u / 160) 7 ∧ r = u - 160 * i ∧ r ≤ 160 ∧
      (thermalFactor curve tf : Int) = interpolated (curve.getD i 0) (curve.getD (i + 1) 0) r := by
  have hu : (((clampInt 0 1280 (tf + 160)).toNat : Nat) : Int) = max 0 (min 1280 (tf + 160)) := by
    simp only [clampInt]
    omega
  refine ⟨_, _, _, hu, rfl, rfl, by omega, ?_⟩
  refine Int.toNat_of_nonneg (le_trans (Int.natCast_nonneg _) (interpolated_between _ _ ?_).1)
  omega

/-- The factor at `r` 160ths of span `i`; where two spans meet both give the curve point. -/
theorem thermalFactor_at (curve : List Nat) {tf : Int} {i r : Nat} (hi : i < 8) (hr : r ≤ 160)
    (htf : max 0 (min 1280 (tf + 160)) = 160 * (i : Int) + (r : Int)) :
    (thermalFactor curve tf : Int) = interpolated (curve.getD i 0) (curve.getD (i + 1) 0) r := by
  obtain ⟨u, j, q, hu, hj, hq, -, h⟩ := thermalFactor_steps curve tf
  rw [h]
  by_cases hlast : r < 160 ∨ i = 7
  · obtain rfl : j = i := by omega
    obtain rfl : q = r := by omega
    rfl
  · obtain rfl : r = 160 := by omega
    obtain rfl : j = i + 1 := by omega
    obtain rfl : q = 0 := by omega
    rw [interpolated_zero, interpolated_full]

theorem thermalFactor_within {curve : List Nat} (hlen : curve.length = 9) (h : ∀ x ∈ curve, 16384 ≤ x ∧ x ≤ 40960)
    (tf : Int) : 16384 ≤ thermalFactor curve tf ∧ thermalFactor curve tf ≤ 40960 := by
  obtain ⟨u, i, r, -, hi, -, hr, he⟩ := thermalFactor_steps curve tf
  have hpoint (k : Nat) (hk : k < 9) : 16384 ≤ curve.getD k 0 ∧ curve.getD k 0 ≤ 40960 := by
    rw [List.getD_eq_getElem _ _ (hlen ▸ hk)]
    exact h _ (List.getElem_mem _)
  have h0 := hpoint i (by omega)
  have h1 := hpoint (i + 1) (by omega)
  have hb := interpolated_between (curve.getD i 0) (curve.getD (i + 1) 0) hr
  omega

/-- Settles O14: the steps as the model takes them (`thermalFactor_steps`), read at each span and at its two ends
(`thermalFactor_at`). -/
theorem thermalFactorInItsSpan : Obligations.ThermalFactorInItsSpan := by
  unfold Obligations.ThermalFactorInItsSpan
  intro curve tf hlen
  refine ⟨thermalFactor_steps curve tf, fun h => thermalFactor_within hlen h tf, fun htf hpoint => ?middle,
    fun i hi hlo hhi => ?span, fun htf => ?below, fun htf => ?above⟩
  case middle =>
    have h := thermalFactor_at curve (tf := tf) (i := 3) (r := 0) (by decide) (by decide) (by omega)
    rw [interpolated_zero] at h
    omega
  case span =>
    obtain ⟨r, hr⟩ := Int.eq_ofNat_of_zero_le (show 0 ≤ tf + 160 - 160 * (i : Int) by omega)
    have h := thermalFactor_at curve (tf := tf) hi (r := r) (by omega) (by omega)
    have hb := interpolated_between (curve.getD i 0) (curve.getD (i + 1) 0) (r := r) (by omega)
    refine ⟨by rw [hr]; exact h, by omega, by omega, fun htf => ?_, fun htf => ?_⟩
    · obtain rfl : r = 0 := by omega
      rw [interpolated_zero] at h
      omega
    · obtain rfl : r = 160 := by omega
      rw [interpolated_full] at h
      omega
  case below =>
    have h := thermalFactor_at curve (tf := tf) (i := 0) (r := 0) (by decide) (by decide) (by omega)
    rw [interpolated_zero] at h
    omega
  case above =>
    have h := thermalFactor_at curve (tf := tf) (i := 7) (r := 160) (by decide) (by decide) (by omega)
    rw [interpolated_full] at h
    exact Int.ofNat_inj.mp h

/-! ### Aging factors and estimates -/

/-- The filter moves an aging factor to a value between the old one and the ratio (R22). -/
theorem agingStep_between (a q : Nat) : min a q ≤ agingStep a q ∧ agingStep a q ≤ max a q := by
  simp only [agingStep]
  split
  · omega
  · rcases Nat.le_total a q with h | h
    · have hnonneg : (0 : Int) ≤ (q : Int) - (a : Int) := by omega
      have := Int.tdiv_nonneg hnonneg (show (0 : Int) ≤ 4 by decide)
      have := Int.tdiv_le_self (b := 4) hnonneg
      omega
    · have hnonneg : (0 : Int) ≤ (a : Int) - (q : Int) := by omega
      have e : ((q : Int) - (a : Int)).tdiv 4 = -(((a : Int) - (q : Int)).tdiv 4) := by rw [← Int.neg_tdiv, Int.neg_sub]
      have := Int.tdiv_nonneg hnonneg (show (0 : Int) ≤ 4 by decide)
      have := Int.tdiv_le_self (b := 4) hnonneg
      omega

/-- The ratio is clamped into the range of the aging factors, and a step toward it does not leave that range (R22). -/
theorem agingStep_within {a : Nat} (h : 16384 ≤ a ∧ a ≤ 34816) (count sRef f : Nat) :
    16384 ≤ agingStep a (agingRatio count sRef f) ∧ agingStep a (agingRatio count sRef f) ≤ 34816 := by
  have hq : 16384 ≤ agingRatio count sRef f ∧ agingRatio count sRef f ≤ 34816 := clampNat_within _ (by decide)
  have := agingStep_between a (agingRatio count sRef f)
  omega

/-- The smallest reference value, thermal factor and aging factor give the estimate 64, and R23 caps it at 65535. -/
theorem estimate_within {lRef f a : Nat} (hl : 256 ≤ lRef) (hf : 16384 ≤ f) (ha : 16384 ≤ a) :
    64 ≤ estimate lRef f a ∧ estimate lRef f a ≤ 65535 := by
  have hprod : 256 * 16384 * 16384 ≤ lRef * f * a := Nat.mul_le_mul (Nat.mul_le_mul hl hf) ha
  have hquot : 64 ≤ lRef * f * a / 2 ^ 30 := (Nat.le_div_iff_mul_le (by decide)).mpr (by omega)
  simp only [estimate]
  omega

theorem rgbWithin_iff {lo hi : Nat} {v : Rgb Nat} : rgbWithin lo hi v ↔ ∀ c : Channel, lo ≤ v.get c ∧ v.get c ≤ hi :=
  ⟨fun ⟨hr, hg, hb⟩ c => by cases c <;> assumption, fun h => ⟨h .r, h .g, h .b⟩⟩

theorem rgbWithin_set {lo hi x : Nat} {v : Rgb Nat} (h : rgbWithin lo hi v) (hx : lo ≤ x ∧ x ≤ hi) (c : Channel) :
    rgbWithin lo hi (v.set c x) := by
  rw [rgbWithin_iff] at h ⊢
  intro d
  by_cases hd : d = c
  · rw [hd, Rgb.get_set_self]; exact hx
  · rw [Rgb.get_set_ne v x hd]; exact h d

/-- Every channel block is in the ranges of R162. -/
def charsInRange (chars : Rgb CharChannel) : Prop := ∀ c : Channel, (chars.get c).inRange

theorem Params.inRange.chars {p : Params} (h : p.inRange) : charsInRange p.chars := fun c => by
  obtain ⟨-, hr, hg, hb⟩ := h
  cases c <;> assumption

/-- What `EstimateInv` says of the estimator's block alone (R19, R22, R23). -/
def Lest.inRange (e : Lest) : Prop :=
  rgbWithin 16384 34816 e.a ∧ (∀ f, e.f = some f → rgbWithin 16384 40960 f) ∧ ∀ l, e.l = some l → rgbWithin 64 65535 l

theorem estimateInv_iff (s : State) : EstimateInv s ↔ s.paramsInRange ∧ s.lest.inRange := Iff.rfl

theorem Lest.reset_inRange : Lest.reset.inRange :=
  ⟨by simp [Lest.reset, rgbWithin, Rgb.all], fun _ h => (nomatch h), fun _ h => (nomatch h)⟩

theorem estimates_get (chars : Rgb CharChannel) (f a : Rgb Nat) (c : Channel) :
    (estimates chars f a).get c = estimate (chars.get c).lRef (f.get c) (a.get c) := by cases c <;> rfl

/-- Factors and estimates worked out from a temperature are in range. -/
theorem Lest.thermal_inRange {e : Lest} {chars : Rgb CharChannel} (hc : charsInRange chars) (h : e.inRange) (tf : Int) :
    (e.thermal chars tf).inRange := by
  obtain ⟨ha, -, -⟩ := h
  have hf (c : Channel) : 16384 ≤ thermalFactor (chars.get c).curve tf ∧ thermalFactor (chars.get c).curve tf ≤ 40960 := by
    obtain ⟨-, -, hlen, hpoints⟩ := hc c
    exact thermalFactor_within hlen hpoints tf
  refine ⟨ha, fun f e => ?_, fun l e => ?_⟩
  · obtain rfl := Option.some.inj e
    rw [rgbWithin_iff]
    exact fun c => by rw [Rgb.get_map]; exact hf c
  · obtain rfl := Option.some.inj e
    rw [rgbWithin_iff] at ha ⊢
    intro c
    rw [estimates_get, Rgb.get_map]
    exact estimate_within (hc c).1 (hf c).1 (ha c).1

/-- An accepted sample leaves factors and estimates in range. -/
theorem Lest.sample_inRange {e : Lest} {chars : Rgb CharChannel} (hc : charsInRange chars) (h : e.inRange) (c : Channel)
    (count factor : Nat) : (e.sample chars c count factor).inRange := by
  obtain ⟨ha, hf, hl⟩ := h
  have hstep := agingStep_within (rgbWithin_iff.mp ha c) count (chars.get c).sRef factor
  unfold Lest.sample
  split
  next f l hf' hl' =>
    refine ⟨rgbWithin_set ha hstep c, hf, fun l' e => ?_⟩
    obtain rfl := Option.some.inj e
    exact rgbWithin_set (hl l hl') (estimate_within (hc c).1 (rgbWithin_iff.mp (hf f hf') c).1 hstep.1) c
  next => exact ⟨rgbWithin_set ha hstep c, hf, hl⟩

end Sys2Proof.Machine
end


section
/-! SUPPORT. What a command hands on: it leaves what the views read, or it ends in the one hand-off (`settle`) of what it has
prepared. One case analysis over the commands, which the views' own proofs use. -/

namespace Sys2Proof.Machine

/-! ### Contributions -/

theorem contributions_eq_iff {t u : Ptab} :
    t.contributions = u.contributions ↔ ∀ a : Addr, (t.slots.get a).contribution = (u.slots.get a).contribution := by
  refine ⟨fun h a => ?_, fun h => Vector.ext fun i hi => ?_⟩
  · rw [← Ptab.contributions_get, ← Ptab.contributions_get, h]
  · have := h ⟨i, hi⟩
    rwa [← Ptab.contributions_get, ← Ptab.contributions_get] at this

theorem contributions_of_slots {t u : Ptab} (h : t.slots = u.slots) : t.contributions = u.contributions := by
  simp [Ptab.contributions, h]

/-- The engine's contributions follow the slots exactly where they are the table's (R118). -/
theorem contributionsFollow_iff {u : State} : ContributionsFollow u ↔ u.tge.peers = u.ptab.contributions := by
  refine ⟨fun h => Vector.ext fun i hi => ?_, contributionsFollow_of_peers⟩
  have hget := (u.ptab.contributions_get ⟨i, hi⟩).symm
  have hslot := h ⟨i, hi⟩
  refine (hslot.trans ?_).trans hget
  cases u.ptab.slots.get ⟨i, hi⟩ <;> rfl

/-- A sign of life neither makes nor moves a report (R111). -/
theorem PeerSlot.life_contribution (x : PeerSlot) : x.life.contribution = x.contribution := by cases x <;> rfl

/-- A slot that is removed was no longer FRESH (R113). -/
theorem PeerSlot.remove_contribution (n : Nat) (x : PeerSlot) : (x.remove n).contribution = x.contribution := by
  cases x with
  | heard | stale =>
    dsimp only [PeerSlot.remove]
    split
    · rfl
    · rfl
  | _ => rfl

theorem update_contributions {t : Ptab} {a : Addr} {f : PeerSlot → PeerSlot}
    (h : (f (t.slots.get a)).contribution = (t.slots.get a).contribution) : (t.update a f).contributions = t.contributions := by
  rw [contributions_eq_iff]
  intro b
  by_cases hb : b = a
  · rw [hb, Ptab.update_get_self, h]
  · rw [Ptab.update_get_ne _ _ hb]

@[simp] theorem signOfLife_contributions (x : Byte) (s : State) :
    (signOfLife x s).ptab.contributions = s.ptab.contributions := by
  unfold signOfLife
  split
  · exact (contributions_of_slots (askUpdate_slots _)).trans (update_contributions (PeerSlot.life_contribution _))
  · rfl

@[simp] theorem deliverLife_contributions (v : Byte) (s : State) :
    (deliverLife v s).ptab.contributions = s.ptab.contributions := by
  unfold deliverLife
  split
  · exact signOfLife_contributions _ _
  · rfl

/-! ### Peer slots under identity's and confinement's hand-offs -/

theorem chooseCandidate_slots (start : Addr) (all : Bool) (s : State) :
    (chooseCandidate start all s).ptab.slots = s.ptab.slots := by
  unfold chooseCandidate
  split
  · split
    · rfl
    · exact enterUnaddressed_slots s
  · rfl

theorem claimFromSeed_slots (s : State) : (claimFromSeed s).ptab.slots = s.ptab.slots := by
  rw [claimFromSeed_eq, chooseCandidate_slots, claimEntered_slots]

/-- What a resumed choice leaves: the peer slots, the signalling but for STAKE and ASK slot; and it moves identity from CLAIMING to
UNADDRESSED at most (R93, R105). -/
theorem resumeChoice_keeps (s : State) :
    (resumeChoice s).ptab.slots = s.ptab.slots ∧
      (resumeChoice s).slc = { s.slc with stake := (resumeChoice s).slc.stake, ask := (resumeChoice s).slc.ask } ∧
      ((resumeChoice s).sid.st = s.sid.st ∨ s.sid.st = .claiming ∧ (resumeChoice s).sid.st = .unaddressed) := by
  unfold resumeChoice
  split
  · split
    next h =>
      simp only [Bool.and_eq_true, decide_eq_true_eq] at h
      obtain ⟨⟨hst, -⟩, -⟩ := h
      obtain ⟨hslots, hslc, -, hends⟩ := chooseCandidate_keeps (s := s) _ _ (by simp [hst])
      exact ⟨hslots, hslc, hends.imp_right fun h => ⟨hst, h⟩⟩
    · exact ⟨rfl, rfl, .inl rfl⟩
  · exact ⟨rfl, rfl, .inl rfl⟩

/-- A changed link state has reached the transmit choice and the peer table (R74, R120). -/
def linkTaken (old : LinkState) (s : State) : State :=
  askUpdate ((s.setSlc (if old = .active then s.slc.cutOff else s.slc)).setPtab { s.ptab with heldLink := s.fc.link })

/-- Station identity has taken it: the choice that has waited for ACTIVE alone is made (R93, R99). -/
def linkChosen (s : State) : State := if s.sid.decision = .yielding then s else resumeChoice s

theorem linkHandOff_changed {old : LinkState} {s : State} (h : s.fc.link ≠ old) :
    linkHandOff old s = handEvents 0 (linkChosen (linkTaken old s)) := by
  dsimp only [linkHandOff]
  rw [if_neg h]
  rfl

theorem linkChosen_keeps (s : State) :
    (linkChosen s).ptab.slots = s.ptab.slots ∧
      (linkChosen s).slc = { s.slc with stake := (linkChosen s).slc.stake, ask := (linkChosen s).slc.ask } ∧
      ((linkChosen s).sid.st = s.sid.st ∨ s.sid.st = .claiming ∧ (linkChosen s).sid.st = .unaddressed) := by
  unfold linkChosen
  split
  · exact ⟨rfl, rfl, .inl rfl⟩
  · exact resumeChoice_keeps s

theorem linkTaken_sid (old : LinkState) (s : State) : (linkTaken old s).sid = s.sid := by simp [linkTaken]

theorem linkTaken_slots (old : LinkState) (s : State) : (linkTaken old s).ptab.slots = s.ptab.slots := by simp [linkTaken]

/-- Where the link was not ACTIVE before, no transmission is cut off (R74). -/
theorem linkTaken_slc {old : LinkState} (h : old ≠ .active) (s : State) :
    (linkTaken old s).slc = { s.slc with ask := (linkTaken old s).slc.ask } := by
  unfold linkTaken
  rw [askUpdate_slc]
  simp [h]

@[simp] theorem linkHandOff_slots (old : LinkState) (s : State) : (linkHandOff old s).ptab.slots = s.ptab.slots := by
  by_cases h : s.fc.link = old
  · rw [linkHandOff_same h]; simp
  · simp [linkHandOff_changed h, linkChosen_keeps, linkTaken_slots]

@[simp] theorem confine_slots (f : Fc → Fc) (s : State) : (confine f s).ptab.slots = s.ptab.slots := linkHandOff_slots _ _

/-- A hand-off that leaves ACTIVE alone moves of the signalling STAKE and ASK slot, and identity from CLAIMING to UNADDRESSED at
most. -/
theorem linkHandOff_keeps {old : LinkState} {s : State} (h : old ≠ .active ∨ s.fc.link = old) :
    (linkHandOff old s).slc =
        { s.slc with stake := (linkHandOff old s).slc.stake, ask := (linkHandOff old s).slc.ask } ∧
      ((linkHandOff old s).sid.st = s.sid.st ∨ s.sid.st = .claiming ∧ (linkHandOff old s).sid.st = .unaddressed) := by
  by_cases hs : s.fc.link = old
  · rw [linkHandOff_same hs]
    simp
  · obtain ⟨-, hslc, hst⟩ := linkChosen_keeps (linkTaken old s)
    rw [linkTaken_sid] at hst
    rw [linkHandOff_changed hs]
    simp only [handEvents_frame]
    refine ⟨?_, hst⟩
    rw [hslc, linkTaken_slc (h.resolve_right hs)]

/-- A valid main part of another station's moves the link state from QUIET to ACTIVE at most (R150). -/
theorem Fc.validMain_link (f : Fc) : f.link ≠ .active ∨ (f.validMain false).link = f.link := by
  by_cases h : f.link = .active
  · right
    simp [Fc.validMain, h]
  · exact .inl h

/-! ### What a command leaves of what the views read -/

/-- The loaded copy, factors, estimates and own flags, the owners of the own flags, and the engine are the same in both. -/
def KeepsViewed (s t : State) : Prop :=
  t.csto.loaded = s.csto.loaded ∧ t.lest = { s.lest with lRep := t.lest.lRep, flagsRep := t.lest.flagsRep } ∧
    t.tmon = { s.tmon with pollTimer := t.tmon.pollTimer } ∧ t.sseq.settling = s.sseq.settling ∧
    t.sseq.senseFault = s.sseq.senseFault ∧ t.ftb.nosync = s.ftb.nosync ∧ t.tge = s.tge

theorem KeepsViewed.refl (s : State) : KeepsViewed s s := ⟨rfl, rfl, rfl, rfl, rfl, rfl, rfl⟩

theorem keepsViewed_whenLive {s a t : State} (h : whenLive s a = .next t) (ha : KeepsViewed s a) : KeepsViewed s t :=
  whenLive_next h (.refl s) ha

theorem keepsViewed_ite {c : Prop} [Decidable c] {s a b : State} (ha : KeepsViewed s a) (hb : KeepsViewed s b) :
    KeepsViewed s (if c then a else b) := by
  split
  · exact ha
  · exact hb

theorem KeepsViewed.trans {s t u : State} (h : KeepsViewed s t) (k : KeepsViewed t u) : KeepsViewed s u := by
  obtain ⟨hc, hl, hm, hs, hf, hn, he⟩ := h
  obtain ⟨kc, kl, km, ks, kf, kn, ke⟩ := k
  exact ⟨kc.trans hc, by rw [kl, hl], by rw [km, hm], ks.trans hs, kf.trans hf, kn.trans hn, ke.trans he⟩

theorem keepsViewed_noticeDone (f : Frame) (s : State) : KeepsViewed s (noticeDone f s) := by
  dsimp only [noticeDone, takeReported]
  repeat' split
  all_goals exact ⟨rfl, rfl, rfl, rfl, rfl, rfl, rfl⟩

theorem keepsViewed_ownComplete {k : Kind} {h : Frame → State → State} (hh : ∀ f x, KeepsViewed x (h f x)) (s : State) :
    KeepsViewed s (ownComplete k h s) := by
  dsimp only [ownComplete]
  split
  next f _ =>
    refine KeepsViewed.trans (.refl s) ((hh f ((s.setSlc (((s.slc.release .none).completeSlot k).openWindow f true)).setFc
      (s.fc.validMain true))).trans ?_)
    simp [KeepsViewed]
  next => exact .refl s

theorem keepsViewed_windowOpen (s : State) : KeepsViewed s (windowOpen s) := by
  dsimp only [windowOpen]
  split
  · exact .refl s
  · exact .refl s

theorem keepsViewed_intervalExpiry (s : State) : KeepsViewed s (intervalExpiry s) := by
  unfold intervalExpiry
  split
  · split
    · exact .refl s
    · exact .refl s
  · exact .refl s

theorem keepsViewed_fixtureReceived (src tgt code : Byte) (args : List Byte) (s : State) :
    KeepsViewed s (fixtureReceived src tgt code args s) := by
  obtain ⟨hm, hl⟩ := keepsTemperature_fixtureReceived src tgt code args s
  refine ⟨hl, ?_, by rw [hm], ?_⟩
  · simp [fixtureReceived]
  · simp [fixtureReceived]

/-- The commands that end in the hand-off of what they have changed, and RESET (R26, R126). -/
def endsInHandOff : Instr → Bool
  | .reset | .endOfLoading | .fsyncEdge _ | .substituteTick | .temperatureReadCompletion _ | .senseWindowClose
  | .countArrival _ | .settleTimeout | .noticeReceived _ _ _ | .frameEof | .slotStale | .busStuckClear => true
  | _ => false

theorem keepsViewed_release (t : Nat) (fxs : Bool) (s : State) : KeepsViewed s (release t fxs s) :=
  ⟨rfl, rfl, rfl, rfl, rfl, rfl, rfl⟩

theorem exec_keepsViewed {c : Instr} {s t : State} (hc : endsInHandOff c = false) (h : exec c s = .next t) : KeepsViewed s t := by
  cases c with
  | reset | endOfLoading | fsyncEdge | substituteTick | temperatureReadCompletion | senseWindowClose | countArrival
  | settleTimeout | noticeReceived | frameEof | slotStale | busStuckClear => cases hc
  | resetRelease =>
    obtain rfl := Host.Outcome.next.inj h
    exact keepsViewed_ite (keepsViewed_release _ _ s) (.refl s)
  | pollTimerExpiry =>
    refine keepsViewed_whenLive h ?_
    split
    · exact .refl s
    · exact ⟨rfl, rfl, rfl, rfl, rfl, rfl, rfl⟩
  | senseWindowOpen => exact keepsViewed_whenLive h (keepsViewed_windowOpen s)
  | intervalTimerExpiry => exact keepsViewed_whenLive h (keepsViewed_intervalExpiry s)
  | receiverReady | arbitrationLoss | sendSymbolError | reportTimerDue | spacingCountFull =>
    exact keepsViewed_whenLive h (keepsViewed_ite (.refl s) (.refl s))
  | bitError | malformedFrame =>
    exact keepsViewed_whenLive h (keepsViewed_ite (by simp [KeepsViewed]) (.refl s))
  | ownNoticeComplete => exact keepsViewed_whenLive h (keepsViewed_ownComplete keepsViewed_noticeDone s)
  | ownAskComplete => exact keepsViewed_whenLive h (keepsViewed_ownComplete (fun _ x => by simp [KeepsViewed]) s)
  | ownStakeComplete | ownMusterComplete =>
    exact keepsViewed_whenLive h (keepsViewed_ownComplete (fun _ x => .refl x) s)
  | musterReceived | stakeReceived => exact keepsViewed_whenLive h (by simp [KeepsViewed])
  | capability | status | statusClear | identity | gains | targets | storeState | page | unknownSelector =>
    exact keepsViewed_whenLive h (by simp [KeepsViewed, askReceived])
  | arm | disarm | burn | lock | unknownCommand =>
    exact keepsViewed_whenLive h (keepsViewed_fixtureReceived _ _ _ _ s)
  | burnByteComplete | lockComplete | driverTransferComplete | detachHistoryClear =>
    exact keepsViewed_whenLive h (by simp [KeepsViewed])
  | _ => exact keepsViewed_whenLive h (by simp [KeepsViewed])

/-! ### Contributions under the commands that do not hand on -/

/-- A malformed frame moves the signalling and the counts, and through them no peer slot. -/
@[simp] theorem malformed_slots (f : Finding) (s : State) : (malformed f s).ptab.slots = s.ptab.slots := confine_slots _ _

@[simp] theorem replyError_slots (w : Window) (f : ReplyFinding) (s : State) :
    (replyError w f s).ptab.slots = s.ptab.slots := confine_slots _ _

theorem startOfFrame_slots (t pulse : Nat) (s : State) : (startOfFrame t pulse s).ptab.slots = s.ptab.slots := by
  unfold startOfFrame
  repeat' split
  all_goals simp

theorem busStuckSet_slots (d : Nat) (s : State) : (busStuckSet d s).ptab.slots = s.ptab.slots := by
  dsimp only [busStuckSet, stuckPulse]
  repeat' split
  all_goals simp

theorem listenEnd_slots (s : State) : (listenEnd s).ptab.slots = s.ptab.slots := by
  unfold listenEnd
  repeat' split
  all_goals simp [claimFromSeed_slots]

theorem answerReceived_slots (block : List Byte) (s : State) : (answerReceived block s).ptab.slots = s.ptab.slots := by
  unfold answerReceived
  repeat' split
  all_goals simp

theorem replyBlockError_slots (e : ReplyError) (s : State) : (replyBlockError e s).ptab.slots = s.ptab.slots := by
  unfold replyBlockError
  split
  · exact replyError_slots _ _ s
  · rfl

theorem ownComplete_slots {k : Kind} {h : Frame → State → State} (hh : ∀ f x, (h f x).ptab.slots = x.ptab.slots) (s : State) :
    (ownComplete k h s).ptab.slots = s.ptab.slots := by
  dsimp only [ownComplete]
  split
  · simp [hh]
  · rfl

theorem contestByte_contributions (v : Byte) (s : State) : (contestByte v s).ptab.contributions = s.ptab.contributions := by
  unfold contestByte
  split
  · simp
  · simp

theorem musterByte_contributions (v : Byte) (s : State) : (musterByte v s).ptab.contributions = s.ptab.contributions := by
  unfold musterByte
  split
  · simp
  · simp

theorem slotRemoval_contributions (s : State) : (slotRemoval s).ptab.contributions = s.ptab.contributions := by
  unfold slotRemoval
  split
  next p _ =>
    obtain ⟨hget, -⟩ := removeSlots_keeps false p s
    exact contributions_eq_iff.mpr fun a => by rw [hget, PeerSlot.remove_contribution]
  next => rfl

/-- A main part of any kind but NOTICE is at most a sign of life (R78, R87). -/
theorem deliver_contributions {f : Frame} (hf : f.body.kind ≠ .notice) (s : State) :
    (deliver f s).ptab.contributions = s.ptab.contributions := by
  unfold deliver deliverToTable
  split
  · cases hb : f.body with
    | notice => simp [hb, Body.kind] at hf
    | _ => simp
  · rfl

/-- What the deliveries leave of identity: the own address (R103). -/
theorem deliver_own (f : Frame) (s : State) : (deliver f s).sid.own = s.sid.own := by
  have hd : (duplicateTest f.src s).sid.own = s.sid.own := by
    dsimp only [duplicateTest]
    repeat' split
    all_goals simp
  unfold deliver deliverToTable
  repeat' split
  all_goals simp [hd]

theorem frameReceived_contributions {f : Frame} {h : LinkState → State → State} {s : State} (hf : f.body.kind ≠ .notice)
    (hh : ∀ k, (h k (deliver f (receiveMain f s))).ptab.contributions = (deliver f (receiveMain f s)).ptab.contributions) :
    (frameReceived f h s).ptab.contributions = s.ptab.contributions := by
  have hd : (deliver f (receiveMain f s)).ptab.contributions = s.ptab.contributions := by
    rw [deliver_contributions hf]; simp
  dsimp only [frameReceived]
  split
  · split
    · rw [contributions_of_slots (linkHandOff_slots _ _)]
      split
      · rw [hh, hd]
      · exact hd
    · exact contributions_of_slots (malformed_slots _ _)
  · rfl

/-- A yield empties the own slot and moves no other (R101). -/
theorem yieldAddress_slots (a : Addr) (s : State) :
    (yieldAddress a s).ptab.slots = (s.ptab.update a fun _ => .empty).slots := by
  dsimp only [yieldAddress]
  split
  · simp [changeIdentity_ptab]
  · simp [chooseCandidate_slots, changeIdentity_ptab]

/-- The own slot is SELF, so that a yield at the EOB takes no contribution away (R99, R102). -/
theorem stakeAtEob_contributions {s : State} (hs : ∀ a, s.sid.own = some a → s.ptab.slots.get a = .self) (tgt : Byte)
    (uid : BitVec 64) (mode : Byte) (link : LinkState) :
    (stakeAtEob tgt uid mode link s).ptab.contributions = s.ptab.contributions := by
  unfold stakeAtEob
  split
  next a ha =>
    repeat' split
    · rfl
    · refine (contributions_of_slots (yieldAddress_slots a _)).trans (update_contributions ?_)
      rw [State.setSid_ptab, hs a ha]
      rfl
    · rfl
  next => rfl

theorem stakeReceived_contributions {s : State} (ha : AddressInv s) (src tgt : Byte) (uid : BitVec 64) (mode : Byte) :
    (frameReceived { src := src, tgt := tgt, body := .stake uid mode } (stakeAtEob tgt uid mode) s).ptab.contributions =
      s.ptab.contributions := by
  obtain ⟨-, -, hself⟩ := ha
  refine frameReceived_contributions (by simp [Body.kind]) fun k => stakeAtEob_contributions (fun a hown => ?_) _ _ _ _
  rw [deliver_own] at hown
  have hptab : ∀ x : State, (deliver ⟨src, tgt, .stake uid mode⟩ x).ptab = x.ptab := fun x => by
    unfold deliver deliverToTable
    split
    · simp
    · rfl
  rw [hptab]
  simpa using (hself a).mpr (by simpa using hown)

theorem keepsContributions_whenLive {s a t : State} (h : whenLive s a = .next t)
    (ha : a.ptab.contributions = s.ptab.contributions) : t.ptab.contributions = s.ptab.contributions :=
  whenLive_next (P := fun u => u.ptab.contributions = s.ptab.contributions) h rfl ha

theorem exec_keepsContributions {c : Instr} {s t : State} (hc : endsInHandOff c = false) (ha : AddressInv s)
    (h : exec c s = .next t) : t.ptab.contributions = s.ptab.contributions := by
  cases c with
  | reset | endOfLoading | fsyncEdge | substituteTick | temperatureReadCompletion | senseWindowClose | countArrival
  | settleTimeout | noticeReceived | frameEof | slotStale | busStuckClear => cases hc
  | resetRelease =>
    obtain rfl := Host.Outcome.next.inj h
    split
    · rfl
    · rfl
  | pollTimerExpiry =>
    refine keepsContributions_whenLive h ?_
    split
    · rfl
    · rfl
  | receiverReady | arbitrationLoss | sendSymbolError | reportTimerDue | spacingCountFull =>
    refine keepsContributions_whenLive h ?_
    split
    · rfl
    · rfl
  | bitError | malformedFrame =>
    refine keepsContributions_whenLive h (contributions_of_slots ?_)
    split
    · simp
    · rfl
  | ownNoticeComplete => exact keepsContributions_whenLive h (contributions_of_slots (ownComplete_slots (fun _ _ => by simp) s))
  | ownAskComplete =>
    exact keepsContributions_whenLive h (contributions_of_slots (ownComplete_slots (fun _ x => by rfl) s))
  | ownStakeComplete | ownMusterComplete =>
    exact keepsContributions_whenLive h (contributions_of_slots (ownComplete_slots (fun _ _ => rfl) s))
  | musterReceived => exact keepsContributions_whenLive h (frameReceived_contributions (by simp [Body.kind]) fun _ => by simp)
  | stakeReceived => exact keepsContributions_whenLive h (stakeReceived_contributions ha _ _ _ _)
  | capability | status | statusClear | identity | gains | targets | storeState | page | unknownSelector =>
    exact keepsContributions_whenLive h (frameReceived_contributions (by simp [Body.kind]) fun _ => by simp)
  | arm | disarm | burn | lock | unknownCommand =>
    exact keepsContributions_whenLive h (frameReceived_contributions (by simp [Body.kind]) fun _ => by simp)
  | contestByteReceived => exact keepsContributions_whenLive h (contestByte_contributions _ s)
  | musterByteReceived => exact keepsContributions_whenLive h (musterByte_contributions _ s)
  | slotRemoval => exact keepsContributions_whenLive h (slotRemoval_contributions s)
  | answerBlockReceived => exact keepsContributions_whenLive h (contributions_of_slots (answerReceived_slots _ s))
  | replyBlockError => exact keepsContributions_whenLive h (contributions_of_slots (replyBlockError_slots _ s))
  | startOfFrame => exact keepsContributions_whenLive h (contributions_of_slots (startOfFrame_slots _ _ s))
  | busStuckSet => exact keepsContributions_whenLive h (contributions_of_slots (busStuckSet_slots _ s))
  | listenEnd => exact keepsContributions_whenLive h (contributions_of_slots (listenEnd_slots s))
  | silenceExpiry | detach | detachRecovery =>
    exact keepsContributions_whenLive h (contributions_of_slots (confine_slots _ s))
  | _ => exact keepsContributions_whenLive h (by simp)

/-! ### What a command has prepared for its hand-off -/

/-- `x` is what an event has made of `s` where its hand-off finds it: the loaded copy and the engine's own entry are as they were,
a settled engine is settled, estimates are not taken away, and factors and estimates in range stay there. -/
def Prepared (s x : State) : Prop :=
  x.csto.loaded = s.csto.loaded ∧ x.tge.own = s.tge.own ∧
    (∀ p, s.csto.loaded = some p → s.tge.recompute p = s.tge → x.tge.recompute p = x.tge) ∧
    (s.lest.l.isSome → x.lest.l.isSome) ∧ (EstimateInv s → x.lest.inRange)

/-- `t` follows the hand-off `y` of an event, moved at most by a return of the link to ACTIVE: what the views read, the
contributions and the NOTICE slot stay, and no station enters RUN. -/
def FollowsHandOff (y t : State) : Prop :=
  KeepsViewed y t ∧ t.lest = y.lest ∧ t.ptab.contributions = y.ptab.contributions ∧ (t.sid.st = .run → y.sid.st = .run) ∧
    t.slc.notice = y.slc.notice ∧ t.slc.deferred = y.slc.deferred

/-- The command leaves what the views read, or ends in the hand-off of what it has prepared. -/
def HandsOn (s t : State) : Prop :=
  (KeepsViewed s t ∧ t.lest = s.lest ∧ t.ptab.contributions = s.ptab.contributions) ∨
    ∃ x, Prepared s x ∧ FollowsHandOff (settle x) t

theorem HandsOn.refl (s : State) : HandsOn s s := .inl ⟨.refl s, rfl, rfl⟩

theorem FollowsHandOff.refl (y : State) : FollowsHandOff y y := ⟨.refl y, rfl, rfl, id, rfl, rfl⟩

theorem handsOn_settle {s x : State} (h : Prepared s x) : HandsOn s (settle x) := .inr ⟨x, h, .refl _⟩

/-- An event that leaves estimator, engine and loaded copy has prepared its hand-off. -/
theorem prepared_of_same {s x : State} (hc : x.csto.loaded = s.csto.loaded) (ht : x.tge = s.tge) (hl : x.lest = s.lest) :
    Prepared s x :=
  ⟨hc, by rw [ht], fun _ _ h => by rwa [ht], by rw [hl]; exact id, fun h => by rw [hl]; exact h.2⟩

theorem prepared_tick (x : Ftb) (s : State) : Prepared s (tick (s.setFtb x)) := by
  obtain ⟨f, w, n, h⟩ := tick_eq (s.setFtb x)
  have hlest : (tick (s.setFtb x)).lest = s.lest := by simp
  have hpeers : (tickPeers w (s.setFtb x)).tge = s.tge := by simp
  have hengine : (tick (s.setFtb x)).tge = (tickEngine f (tickPeers w (s.setFtb x))).tge := by
    rw [h]
    simp [tickIn]
  refine ⟨by simp, ?_, fun p hp hs => ?_, by rw [hlest]; exact id, fun h => by rw [hlest]; exact h.2⟩
  · rw [hengine, ← hpeers]
    cases hp : s.csto.loaded with
    | none => simp [tickEngine, hp]
    | some p => exact (tickEngine_inputs f (p := p) (by simpa using hp)).1
  · rw [hengine]
    rw [← hpeers] at hs
    exact (tickEngine_inputs f (p := p) (by simpa using hp)).2 hs

theorem handsOn_fsyncEdge (t : Nat) (s : State) : HandsOn s (fsyncEdge t s) := by
  unfold fsyncEdge
  split
  · exact handsOn_settle (prepared_tick _ s)
  · exact .refl s

theorem handsOn_substituteTick (s : State) : HandsOn s (substituteTick s) := by
  unfold substituteTick
  split
  · exact .refl s
  · exact handsOn_settle (prepared_tick _ s)

theorem handsOn_slotStale (s : State) : HandsOn s (slotStale s) := by
  unfold slotStale
  split
  · exact handsOn_settle (prepared_of_same (by simp) (by simp) (by simp))
  · exact .refl s

theorem handsOn_windowClose (s : State) : HandsOn s (windowClose s) := by
  unfold windowClose
  split
  · exact .inl ⟨.refl s, rfl, rfl⟩
  · exact .inl ⟨.refl s, rfl, rfl⟩
  · exact handsOn_settle (prepared_of_same rfl rfl rfl)
  · exact handsOn_settle (prepared_of_same rfl rfl rfl)

theorem handsOn_settleTimeout (s : State) : HandsOn s (settleTimeout s) := by
  unfold settleTimeout
  split
  · split
    · exact handsOn_settle (prepared_of_same rfl rfl rfl)
    · exact .refl s
  · exact .refl s

/-- Factors and estimates worked out from T_f are those of a station in range, where the loaded copy is. -/
theorem temperatureTaken_inRange {s : State} (h : EstimateInv s) (o : Option Int) : (temperatureTaken o s).lest.inRange := by
  obtain ⟨hp, hl⟩ := h
  rw [temperatureTaken_lest]
  split
  next p he =>
    split
    · exact hl
    · exact Lest.thermal_inRange (hp p he).chars hl _
  next => exact hl

theorem handsOn_temperatureRead (o : Option Int) (s : State) : HandsOn s (temperatureRead o s) := by
  unfold temperatureRead
  split
  · have hlest : (busNext (temperatureTaken o s)).lest = (temperatureTaken o s).lest := by simp
    refine handsOn_settle (x := busNext (temperatureTaken o s))
      ⟨by simp [temperatureTaken], by simp [temperatureTaken], fun _ _ h => by simpa [temperatureTaken] using h,
        fun hl => ?_, fun h => by rw [hlest]; exact temperatureTaken_inRange h o⟩
    rw [hlest, temperatureTaken_lest]
    repeat' split
    all_goals simp_all [Lest.thermal]
  · exact .refl s

theorem countOutcome_inRange {s : State} (h : EstimateInv s) (o : Option (BitVec 16)) : (countOutcome o s).lest.inRange := by
  obtain ⟨hp, hl⟩ := h
  unfold countOutcome
  split
  · exact hl
  · split
    next p he _ =>
      dsimp only [classifyCount]
      split
      · exact hl
      · split
        · exact Lest.sample_inRange (hp p he).chars hl _ _ _
        · exact hl
    · exact hl

theorem handsOn_countArrival (o : Option (BitVec 16)) (s : State) : HandsOn s (countArrival o s) := by
  unfold countArrival
  split
  · exact handsOn_settle ⟨by simp, by simp, fun _ _ h => by simpa using h,
      fun hl => by simpa using countOutcome_estimates (o := o) hl, fun h => by simpa using countOutcome_inRange h o⟩
  · exact .refl s

theorem handsOn_closeFrame {s y : State} (hc : y.csto = s.csto) (ht : y.tge = s.tge) (hl : y.lest = s.lest) (w : Window) :
    HandsOn s (closeFrame w y) := by
  refine handsOn_settle (prepared_of_same ?_ ?_ ?_)
  all_goals dsimp only [State.setSid_csto, State.setSlc_csto, State.setSid_tge, State.setSlc_tge, State.setSid_lest,
    State.setSlc_lest]
  · split
    · simp [hc]
    · rw [hc]
  · split
    · simpa using ht
    · exact ht
  · split
    · simpa using hl
    · exact hl

theorem handsOn_frameEof (s : State) : HandsOn s (frameEof s) := by
  unfold frameEof
  split
  · split
    · exact handsOn_closeFrame rfl rfl rfl _
    · exact .refl s
  · exact .refl s

theorem handsOn_busStuckClear (s : State) : HandsOn s (busStuckClear s) := by
  dsimp only [busStuckClear]
  split
  · split
    · exact handsOn_closeFrame rfl rfl rfl _
    · exact .inl ⟨by simp [KeepsViewed], by simp, by simp⟩
  · exact .refl s

/-- After an event that has at most returned the link to ACTIVE, its hand-off stands. -/
theorem followsHandOff_linkHandOff {old : LinkState} {y : State} (h : old ≠ .active ∨ y.fc.link = old) :
    FollowsHandOff y (linkHandOff old y) := by
  obtain ⟨hslc, hst⟩ := linkHandOff_keeps h
  refine ⟨by simp [KeepsViewed], by simp, contributions_of_slots (by simp), fun hrun => ?_, by rw [hslc], by rw [hslc]⟩
  rcases hst with h | ⟨-, h⟩
  · rwa [← h]
  · simp [h] at hrun

theorem handsOn_noticeReceived (f : Frame) (s : State) : HandsOn s (frameReceived f (fun _ => settle) s) := by
  dsimp only [frameReceived]
  split
  · split
    · split
      next hl =>
        refine .inr ⟨deliver f (receiveMain f s), prepared_of_same (by simp) (by simp) (by simp), followsHandOff_linkHandOff ?_⟩
        simpa [receiveMain] using s.fc.validMain_link
      next hl =>
        refine .inl ⟨by simp [KeepsViewed], by simp, contributions_of_slots ?_⟩
        simp [deliver, hl]
    · exact .inl ⟨by simp [KeepsViewed], by simp, contributions_of_slots (by simp)⟩
  · exact .refl s

theorem handsOn_whenLive {s a t : State} (h : whenLive s a = .next t) (ha : HandsOn s a) : HandsOn s t :=
  whenLive_next h (.refl s) ha

/-- The two commands that put the blocks anew: RESET and the end of loading. -/
def startsBlocks : Instr → Bool
  | .reset | .endOfLoading => true
  | _ => false

theorem exec_handsOn {c : Instr} {s t : State} (hc : endsInHandOff c = true) (hb : startsBlocks c = false) (h : exec c s = .next t) :
    HandsOn s t := by
  cases c with
  | reset | endOfLoading => cases hb
  | fsyncEdge t => exact handsOn_whenLive h (handsOn_fsyncEdge t s)
  | substituteTick => exact handsOn_whenLive h (handsOn_substituteTick s)
  | temperatureReadCompletion o => exact handsOn_whenLive h (handsOn_temperatureRead o s)
  | senseWindowClose => exact handsOn_whenLive h (handsOn_windowClose s)
  | countArrival o => exact handsOn_whenLive h (handsOn_countArrival o s)
  | settleTimeout => exact handsOn_whenLive h (handsOn_settleTimeout s)
  | noticeReceived => exact handsOn_whenLive h (handsOn_noticeReceived _ s)
  | frameEof => exact handsOn_whenLive h (handsOn_frameEof s)
  | slotStale => exact handsOn_whenLive h (handsOn_slotStale s)
  | busStuckClear => exact handsOn_whenLive h (handsOn_busStuckClear s)
  | _ => cases hc
end Sys2Proof.Machine
end


section
/-! SUPPORT. The four views (O47) and the ranges of factors and estimates (O51), from what each command hands on. -/

namespace Sys2Proof.Machine

/-! ### Under what keeps what the views read -/

theorem KeepsViewed.flags {s t : State} (k : KeepsViewed s t) : t.flags = s.flags := by
  obtain ⟨hc, -, hm, hs, hf, hn, ht⟩ := k
  simp only [State.flags, Csto.uncal, hc, hs, hf, hn, ht]
  rw [hm]

theorem KeepsViewed.ownFlagsInv {s t : State} (k : KeepsViewed s t) (h : OwnFlagsInv s) : OwnFlagsInv t := by
  have hflags := k.flags
  obtain ⟨-, hl, -⟩ := k
  unfold OwnFlagsInv
  rw [hflags, hl]
  exact h

theorem KeepsViewed.estimateInv {s t : State} (k : KeepsViewed s t) (h : EstimateInv s) : EstimateInv t := by
  obtain ⟨hc, hl, -⟩ := k
  rw [estimateInv_iff, State.paramsInRange, hc, hl]
  exact h

theorem KeepsViewed.engineInv {s t : State} (k : KeepsViewed s t) (hp : t.ptab.contributions = s.ptab.contributions)
    (h : EngineInv s) : EngineInv t := by
  obtain ⟨hc, hl, hm, -, -, -, ht⟩ := k
  obtain ⟨hnone, hsome⟩ := h
  refine ⟨fun hu => by rw [ht]; exact hnone (hc ▸ hu), fun p hu => ?_⟩
  obtain ⟨hisSome, htold, hsettled⟩ := hsome p (hc ▸ hu)
  have hlum : t.lest.l = s.lest.l := by rw [hl]
  have hown : t.lest.ownFlags = s.lest.ownFlags := by rw [hl]
  have hcrit : t.tmon.crit = s.tmon.crit := by rw [hm]
  refine ⟨hlum ▸ hisSome, fun l e => ?_, by rw [ht]; exact hsettled⟩
  rw [hlum] at e
  rw [hown, ht, hcrit, contributionsFollow_iff, hp, ht, ← contributionsFollow_iff]
  exact htold l e

/-! ### Under the hand-off of an event -/

theorem settle_csto (x : State) : (settle x).csto = x.csto := by simp

theorem settle_ownFlagsInv (x : State) : OwnFlagsInv (settle x) := congrArg Lest.ownFlags (settle_lest x)

theorem Prepared.estimateInv {s x : State} (k : Prepared s x) (h : EstimateInv s) : EstimateInv (settle x) := by
  obtain ⟨hc, -, -, -, hr⟩ := k
  rw [estimateInv_iff, State.paramsInRange, settle_csto, hc, settle_lest]
  exact ⟨h.1, hr h⟩

/-- The hand-off gives the engine its inputs, and leaves it settled where the event found it settled (R126, R127). -/
theorem settle_engineInv {x : State} (hnone : x.csto.loaded = none → x.tge.own = none)
    (hsome : ∀ p, x.csto.loaded = some p → x.lest.l.isSome ∧ x.tge.recompute p = x.tge) : EngineInv (settle x) := by
  rw [EngineInv, settle_csto]
  refine ⟨fun hu => by rw [settle_tge_unloaded (.inl hu)]; exact hnone hu, fun p hp => ?_⟩
  obtain ⟨hl, hs⟩ := hsome p hp
  exact ⟨by rw [settle_lest]; exact hl, settle_engineTold hp, settle_recompute hp hs⟩

theorem Prepared.engineInv {s x : State} (k : Prepared s x) (h : EngineInv s) : EngineInv (settle x) := by
  obtain ⟨hc, ho, hs, hl, -⟩ := k
  obtain ⟨hnone, hsome⟩ := h
  refine settle_engineInv (fun hu => by rw [ho]; exact hnone (hc ▸ hu)) fun p hp => ?_
  rw [hc] at hp
  obtain ⟨hisSome, -, hsettled⟩ := hsome p hp
  exact ⟨hl hisSome, hs p hp hsettled⟩

theorem HandsOn.ownFlagsInv {s t : State} (h : HandsOn s t) (hs : OwnFlagsInv s) : OwnFlagsInv t := by
  rcases h with ⟨k, -⟩ | ⟨x, -, k, -⟩
  · exact k.ownFlagsInv hs
  · exact k.ownFlagsInv (settle_ownFlagsInv x)

theorem HandsOn.estimateInv {s t : State} (h : HandsOn s t) (hs : EstimateInv s) : EstimateInv t := by
  rcases h with ⟨k, -⟩ | ⟨x, hx, k, -⟩
  · exact k.estimateInv hs
  · exact k.estimateInv (hx.estimateInv hs)

theorem HandsOn.engineInv {s t : State} (h : HandsOn s t) (hs : EngineInv s) : EngineInv t := by
  rcases h with ⟨k, -, hp⟩ | ⟨x, hx, k, -, hp, -⟩
  · exact k.engineInv hp hs
  · exact k.engineInv hp (hx.engineInv hs)

/-! ### Reset and the end of loading -/

theorem resetState_ownFlagsInv (s : State) : OwnFlagsInv (resetState s) := by
  change (0x14 : Byte) = flagsByte false false true false true false false false
  decide

theorem resetState_estimateInv (s : State) : EstimateInv (resetState s) :=
  (estimateInv_iff _).mpr ⟨fun _ h => (nomatch h), Lest.reset_inRange⟩

theorem resetState_engineInv (s : State) : EngineInv (resetState s) := ⟨fun _ => rfl, fun _ h => nomatch h⟩

theorem endOfLoading_ownFlagsInv (p : Params) (s : State) : OwnFlagsInv (endOfLoading p s) := settle_ownFlagsInv _

theorem endOfLoading_estimateInv {s : State} (h : EstimateInv s) :
    EstimateInv (endOfLoading (loadParams s.csto.array) s) := by
  have hp := loadParams_inRange s.csto.array
  generalize loadParams s.csto.array = p at hp
  rw [estimateInv_iff, State.paramsInRange, endOfLoading_csto, endOfLoading_eq, settle_lest, loadingTaken_lest]
  exact ⟨fun q e => Option.some.inj e ▸ hp, Lest.thermal_inRange hp.chars h.2 _⟩

/-- Before loading ends the engine holds no own entry, so that its first recompute is that of the end of loading (R146). -/
theorem endOfLoading_engineInv {s : State} (p : Params) (hn : s.csto.loaded = none) (h : EngineInv s) :
    EngineInv (endOfLoading p s) := by
  have hloaded : (loadingTaken p s).csto.loaded = some p := by simp [loadingTaken]
  have hown : (loadingTaken p s).tge.own = none := by rw [loadingTaken_tge]; exact h.1 hn
  rw [endOfLoading_eq]
  refine settle_engineInv (fun _ => hown) fun q _ => ⟨by rw [loadingTaken_lest]; rfl, ?_⟩
  simp [Tge.recompute, hown]

/-- What RESET and the end of loading bring about, what a command that ends in no hand-off does, and what one that does, holds
after every command. -/
theorem exec_cases {P : State → Prop} {c : Instr} {s t : State} (h : exec c s = .next t) (hs : P s) (hreset : P (resetState s))
    (hload : s.csto.loaded = none → P (endOfLoading (loadParams s.csto.array) s))
    (hkeeps : endsInHandOff c = false → P t) (hhands : HandsOn s t → P t) : P t := by
  by_cases hc : endsInHandOff c = true
  · by_cases hb : startsBlocks c = true
    · cases c with
      | reset => exact Host.Outcome.next.inj h ▸ hreset
      | endOfLoading =>
        refine whenLive_next h hs ?_
        split
        next hn => exact hload (by simpa using hn)
        next => exact hs
      | _ => cases hb
    · exact hhands (exec_handsOn hc (by simpa using hb) h)
  · exact hkeeps (by simpa using hc)

/-- A step is line time, at most at the own transmission, or the front command on the queue's rest. -/
theorem step_cases {s t : State} (h : step s = .next t) :
    t = s ∨ t = s.setSlc s.slc.partPasses ∨ ∃ c rest, exec c (s.setPending rest) = .next t := by
  unfold step at h
  split at h
  · obtain rfl := Host.Outcome.next.inj h
    split
    · exact .inl rfl
    · exact .inr (.inl rfl)
  next c rest _ => exact .inr (.inr ⟨c, rest, h⟩)

/-! ### Factors and estimates -/

theorem exec_estimateInv {c : Instr} {s t : State} (hs : EstimateInv s) (h : exec c s = .next t) : EstimateInv t :=
  exec_cases h hs (resetState_estimateInv s) (fun _ => endOfLoading_estimateInv hs)
    (fun hc => (exec_keepsViewed hc h).estimateInv hs) fun k => k.estimateInv hs

/-- Settles O51: only temperatures and counts move factors and estimates, and both leave them in range. -/
theorem estimateInvariantKept : Obligations.EstimateInvariantKept := by
  unfold Obligations.EstimateInvariantKept
  intro s t hs h
  rcases step_cases h with rfl | rfl | ⟨c, rest, h⟩
  · exact hs
  · exact hs
  · exact exec_estimateInv (s := s.setPending rest) hs h

/-! ### Own flags and engine -/

theorem exec_ownFlagsInv {c : Instr} {s t : State} (hs : OwnFlagsInv s) (h : exec c s = .next t) : OwnFlagsInv t :=
  exec_cases h hs (resetState_ownFlagsInv s) (fun _ => endOfLoading_ownFlagsInv _ s)
    (fun hc => (exec_keepsViewed hc h).ownFlagsInv hs) fun k => k.ownFlagsInv hs

theorem exec_engineInv {c : Instr} {s t : State} (ha : AddressInv s) (hs : EngineInv s) (h : exec c s = .next t) :
    EngineInv t :=
  exec_cases h hs (resetState_engineInv s) (fun hn => endOfLoading_engineInv _ hn hs)
    (fun hc => (exec_keepsViewed hc h).engineInv (exec_keepsContributions hc ha h) hs) fun k => k.engineInv hs

/-! ### The raw set and the fault line -/

/-- The fault line is as the latched and masked entries judge it (R175). -/
def Evu.Judged (e : Evu) : Prop := e.faultLine = (e.latched &&& e.mask != 0)

theorem bne_zero_iff_bit {x : EventSet} : (x != 0) = true ↔ ∃ k < 16, x.getLsbD k = true := by
  rw [bne_iff_ne]
  refine ⟨fun h => ?_, fun ⟨k, _, hk⟩ h => by simp [h] at hk⟩
  by_contra hn
  refine h (BitVec.eq_of_getLsbD_eq fun k hk => ?_)
  rw [Bool.eq_false_iff.mpr fun hb => hn ⟨k, hk, hb⟩]
  simp

theorem faultLineInv_iff (s : State) : FaultLineInv s ↔ s.evu.Judged := by
  have hbits : (s.evu.latched &&& s.evu.mask != 0) = true ↔
      ∃ k < 16, s.evu.latched.getLsbD k ∧ s.evu.mask.getLsbD k := by
    rw [bne_zero_iff_bit]
    simp only [BitVec.getLsbD_and, Bool.and_eq_true]
  exact (iff_congr Iff.rfl hbits.symm).trans Bool.eq_iff_iff.symm

/-- The event unit's two views go over from `s` to `t`. -/
def EventsFollow (s t : State) : Prop := (RawSetInv s → RawSetInv t) ∧ (s.evu.Judged → t.evu.Judged)

theorem EventsFollow.refl (s : State) : EventsFollow s s := ⟨id, id⟩

theorem EventsFollow.trans {s t u : State} (h : EventsFollow s t) (k : EventsFollow t u) : EventsFollow s u :=
  ⟨k.1 ∘ h.1, k.2 ∘ h.2⟩

/-- After a hand-off of events both views are true, whatever was before (R173, R175). -/
theorem eventsFollow_handEvents (s x : State) (pulses : EventSet) : EventsFollow s (handEvents pulses x) :=
  ⟨fun _ => handEvents_raw pulses x, fun _ => rfl⟩

theorem eventsFollow_of_same {s t : State} (he : t.evu = s.evu) (hc : t.conditions = s.conditions) : EventsFollow s t := by
  unfold EventsFollow RawSetInv
  rw [he, hc]
  exact ⟨id, id⟩

theorem eventsFollow_ite {c : Prop} [Decidable c] {s a b : State} (ha : EventsFollow s a) (hb : EventsFollow s b) :
    EventsFollow s (if c then a else b) := by
  split
  · exact ha
  · exact hb

theorem eventsFollow_settle (s x : State) : EventsFollow s (settle x) := by
  unfold settle
  split
  · exact eventsFollow_handEvents _ _ _
  · exact eventsFollow_handEvents _ _ _

theorem eventsFollow_linkHandOff (s x : State) (old : LinkState) : EventsFollow s (linkHandOff old x) := by
  dsimp only [linkHandOff]
  split
  · exact eventsFollow_handEvents _ _ _
  · exact eventsFollow_handEvents _ _ _

theorem eventsFollow_confine (s x : State) (f : Fc → Fc) : EventsFollow s (confine f x) := eventsFollow_linkHandOff _ _ _

theorem eventsFollow_changeIdentity (s x : State) (new : IdState) : EventsFollow s (changeIdentity new x) :=
  eventsFollow_handEvents _ _ _

theorem eventsFollow_chooseCandidate (start : Addr) (all : Bool) (s : State) :
    EventsFollow s (chooseCandidate start all s) := by
  unfold chooseCandidate
  split
  · split
    · exact .refl s
    · exact eventsFollow_changeIdentity _ _ _
  · exact .refl s

theorem eventsFollow_claimFromSeed (s x : State) : EventsFollow s (claimFromSeed x) :=
  (eventsFollow_changeIdentity s _ _).trans (eventsFollow_chooseCandidate _ _ (claimEntered x))

theorem eventsFollow_slotsRemoved (p : Params) (s : State) : EventsFollow s (slotsRemoved p s) := by
  unfold slotsRemoved
  split
  · exact .refl s
  · exact eventsFollow_of_same (by simp) (by simp [State.conditions])

theorem eventsFollow_slotRemoval (s : State) : EventsFollow s (slotRemoval s) := by
  unfold slotRemoval
  split
  next p _ =>
    have hr := eventsFollow_slotsRemoved p s
    rcases removeSlots_cases false p s with h | ⟨-, h | h⟩
    · rw [h]; exact hr
    · rw [h]; exact eventsFollow_claimFromSeed _ _
    · obtain ⟨-, hsid, -⟩ := slotsRemoved_keeps p s
      rw [h, ← hsid]
      exact hr
  next => exact .refl s

theorem eventsFollow_listenEnd (s : State) : EventsFollow s (listenEnd s) := by
  unfold listenEnd
  split
  · split
    · exact eventsFollow_claimFromSeed _ _
    · exact .refl s
  · exact .refl s

theorem eventsFollow_ownComplete (k : Kind) (h : Frame → State → State) (s : State) : EventsFollow s (ownComplete k h s) := by
  unfold ownComplete
  split
  · exact eventsFollow_linkHandOff _ _ _
  · exact .refl s

theorem eventsFollow_frameReceived (f : Frame) (h : LinkState → State → State) (s : State) :
    EventsFollow s (frameReceived f h s) := by
  dsimp only [frameReceived]
  split
  · split
    · exact eventsFollow_linkHandOff _ _ _
    · exact eventsFollow_confine _ _ _
  · exact .refl s

theorem eventsFollow_startOfFrame (t pulse : Nat) (s : State) : EventsFollow s (startOfFrame t pulse s) := by
  unfold startOfFrame
  split
  · exact .refl s
  · split
    · exact .refl s
    · exact eventsFollow_ite (.refl s) (.refl s)
  · exact eventsFollow_ite (.refl s) (eventsFollow_confine _ _ _)
  · split
    · exact eventsFollow_ite (.refl s) (eventsFollow_confine _ _ _)
    · exact .refl s

theorem eventsFollow_transmitStart (sof : SofSent) (s : State) : EventsFollow s (transmitStart sof s) := by
  unfold transmitStart
  repeat' split
  all_goals exact .refl s

theorem eventsFollow_answerReceived (block : List Byte) (s : State) : EventsFollow s (answerReceived block s) := by
  unfold answerReceived
  split
  · split
    · exact .refl s
    · split
      · exact eventsFollow_confine _ _ _
      · exact .refl s
  · exact .refl s

theorem eventsFollow_replyBlockError (e : ReplyError) (s : State) : EventsFollow s (replyBlockError e s) := by
  unfold replyBlockError
  split
  · exact eventsFollow_confine _ _ _
  · exact .refl s

/-- A clear request leaves the raw set, and re-judges the fault line (R175, R178). -/
theorem eventsFollow_replyDone {s y : State} (x : Sending) (h : EventsFollow s y) : EventsFollow s (replyDone x y) := by
  cases x with
  | answer block clears =>
    cases clears with
    | some captured => exact ⟨h.1, fun _ => rfl⟩
    | none => exact h
  | _ => exact h

theorem eventsFollow_ownReply (s : State) : EventsFollow s (ownReply s) := by
  unfold ownReply
  split
  · split
    · exact eventsFollow_replyDone _ (.refl s)
    · exact .refl s
  · exact .refl s

theorem eventsFollow_busStuckSet (d : Nat) (s : State) : EventsFollow s (busStuckSet d s) := by
  unfold busStuckSet
  split
  · exact eventsFollow_handEvents _ _ _
  · exact .refl s

theorem eventsFollow_busStuckClear (s : State) : EventsFollow s (busStuckClear s) := by
  dsimp only [busStuckClear]
  split
  · split
    · exact eventsFollow_settle _ _
    · exact eventsFollow_handEvents _ _ _
  · exact .refl s

theorem eventsFollow_resetState (s : State) : EventsFollow s (resetState s) := by
  refine ⟨fun _ => ?_, fun _ => ?_⟩
  · change (0x0001 : EventSet) = (resetState State.reset).conditions
    decide
  · change false = ((0 : EventSet) &&& 0 != 0)
    decide

/-- Of the store the conditions read the loaded copy alone. -/
theorem eventsFollow_setCsto {s : State} {x : Csto} (h : x.loaded = s.csto.loaded) : EventsFollow s (s.setCsto x) := by
  have hu : x.uncal = s.csto.uncal := by simp only [Csto.uncal, h]
  refine eventsFollow_of_same rfl ?_
  unfold State.conditions
  rw [State.setCsto_csto, hu]
  rfl

theorem eventsFollow_whenLive {s a t : State} (h : whenLive s a = .next t) (ha : EventsFollow s a) : EventsFollow s t :=
  whenLive_next h (.refl s) ha

/-- Where the hand-off ends an event both views are true; what such a command does without one leaves them. -/
theorem exec_eventsFollow_handsOn {c : Instr} {s t : State} (hc : endsInHandOff c = true) (h : exec c s = .next t) :
    EventsFollow s t := by
  cases c with
  | reset => exact Host.Outcome.next.inj h ▸ eventsFollow_resetState s
  | endOfLoading => exact eventsFollow_whenLive h (eventsFollow_ite (eventsFollow_settle _ _) (.refl s))
  | fsyncEdge | temperatureReadCompletion | countArrival =>
    exact eventsFollow_whenLive h (eventsFollow_ite (eventsFollow_settle _ _) (.refl s))
  | substituteTick =>
    refine eventsFollow_whenLive h ?_
    unfold substituteTick
    split
    · exact .refl s
    · exact eventsFollow_settle _ _
  | senseWindowClose =>
    refine eventsFollow_whenLive h ?_
    unfold windowClose
    split
    · exact .refl s
    · exact .refl s
    · exact eventsFollow_settle _ _
    · exact eventsFollow_settle _ _
  | settleTimeout =>
    refine eventsFollow_whenLive h ?_
    unfold settleTimeout
    split
    · exact eventsFollow_ite (eventsFollow_settle _ _) (.refl s)
    · exact .refl s
  | noticeReceived => exact eventsFollow_whenLive h (eventsFollow_frameReceived _ _ s)
  | frameEof =>
    refine eventsFollow_whenLive h ?_
    unfold frameEof
    split
    · exact eventsFollow_ite (eventsFollow_settle _ _) (.refl s)
    · exact .refl s
  | slotStale =>
    refine eventsFollow_whenLive h ?_
    unfold slotStale
    split
    · exact eventsFollow_settle _ _
    · exact .refl s
  | busStuckClear => exact eventsFollow_whenLive h (eventsFollow_busStuckClear s)
  | _ => cases hc

theorem exec_eventsFollow {c : Instr} {s t : State} (h : exec c s = .next t) : EventsFollow s t := by
  cases c with
  | reset | endOfLoading | fsyncEdge | substituteTick | temperatureReadCompletion | senseWindowClose | countArrival
  | settleTimeout | noticeReceived | frameEof | slotStale | busStuckClear => exact exec_eventsFollow_handsOn rfl h
  | resetRelease =>
    obtain rfl := Host.Outcome.next.inj h
    exact eventsFollow_ite (.refl s) (.refl s)
  | pollTimerExpiry =>
    refine eventsFollow_whenLive h ?_
    split
    · exact .refl s
    · exact .refl s
  | intervalTimerExpiry =>
    refine eventsFollow_whenLive h ?_
    unfold intervalExpiry
    split
    · exact eventsFollow_ite (.refl s) (.refl s)
    · exact .refl s
  | senseWindowOpen => exact eventsFollow_whenLive h (eventsFollow_ite (.refl s) (.refl s))
  | receiverReady | arbitrationLoss | sendSymbolError | reportTimerDue | spacingCountFull =>
    exact eventsFollow_whenLive h (eventsFollow_ite (.refl s) (.refl s))
  | bitError | malformedFrame => exact eventsFollow_whenLive h (eventsFollow_ite (eventsFollow_confine _ _ _) (.refl s))
  | ownNoticeComplete | ownAskComplete | ownStakeComplete | ownMusterComplete =>
    exact eventsFollow_whenLive h (eventsFollow_ownComplete _ _ s)
  | musterReceived | stakeReceived | capability | status | statusClear | identity | gains | targets | storeState | page
  | unknownSelector | arm | disarm | burn | lock | unknownCommand =>
    exact eventsFollow_whenLive h (eventsFollow_frameReceived _ _ s)
  | transmitStart => exact eventsFollow_whenLive h (eventsFollow_transmitStart _ s)
  | startOfFrame => exact eventsFollow_whenLive h (eventsFollow_startOfFrame _ _ s)
  | answerBlockReceived => exact eventsFollow_whenLive h (eventsFollow_answerReceived _ s)
  | replyBlockError => exact eventsFollow_whenLive h (eventsFollow_replyBlockError _ s)
  | ownReplyComplete => exact eventsFollow_whenLive h (eventsFollow_ownReply s)
  | listenEnd => exact eventsFollow_whenLive h (eventsFollow_listenEnd s)
  | slotRemoval => exact eventsFollow_whenLive h (eventsFollow_slotRemoval s)
  | silenceExpiry | detach | detachRecovery => exact eventsFollow_whenLive h (eventsFollow_confine _ _ _)
  | busStuckSet => exact eventsFollow_whenLive h (eventsFollow_busStuckSet _ s)
  | contestByteReceived | musterByteReceived | fixtureStatusByteReceived =>
    exact eventsFollow_whenLive h (eventsFollow_of_same (by simp) (by simp [State.conditions]))
  | detachHistoryClear =>
    refine eventsFollow_whenLive h ?_
    unfold Fc.clearHistory
    split
    · exact .refl s
    · exact .refl s
  | burnByteComplete => exact eventsFollow_whenLive h (eventsFollow_setCsto (Csto.burnByte_loaded _ _))
  | lockComplete => exact eventsFollow_whenLive h (eventsFollow_setCsto (Csto.lockByte_loaded _))
  | driverTransferComplete => exact eventsFollow_whenLive h (.refl s)

/-- Settles O47, each view by what a command hands on; `AddressInv` is what keeps a yield at an EOB from the engine. -/
theorem viewsStayTrue : Obligations.ViewsStayTrue := by
  unfold Obligations.ViewsStayTrue
  intro s t h
  rw [faultLineInv_iff, faultLineInv_iff]
  rcases step_cases h with rfl | rfl | ⟨c, rest, h⟩
  · exact ⟨id, id, id, fun _ => id⟩
  · exact ⟨id, id, id, fun _ => id⟩
  · obtain ⟨hraw, hline⟩ := exec_eventsFollow h
    exact ⟨hraw, fun hs => exec_ownFlagsInv (s := s.setPending rest) hs h, hline,
      fun ha hs => exec_engineInv (s := s.setPending rest) ha hs h⟩

end Sys2Proof.Machine
end

section
/-! SUPPORT. The own NOTICE at its completion (O24), and the two rows for aged slots (O42). -/

namespace Sys2Proof.Machine

/-! ### Early requests, case by case -/

theorem earlyRequest_pending {l : Slc} (h : l.notice.content.isSome) (st : IdState) : earlyRequest st l = l := by
  unfold earlyRequest Slc.wantNotice Slc.noticePending
  rw [if_pos h, ite_self]

/-- Below spacing count 4 the request is deferred (R76). -/
theorem earlyRequest_defers {l : Slc} (hn : l.notice.content = none) (hs : l.spacing < 4) :
    earlyRequest .run l = { l with deferred := true } := by
  simp [earlyRequest, Slc.wantNotice, Slc.noticePending, hn, hs]

/-- At spacing count 4 the empty slot is filled (R76). -/
theorem earlyRequest_fills {l : Slc} (hn : l.notice = .empty) (hs : ¬l.spacing < 4) :
    earlyRequest .run l = { l with notice := ⟨some (), false, none⟩ } := by
  simp [earlyRequest, Slc.wantNotice, Slc.noticePending, Slc.fillNotice, hn, hs, OutSlot.empty, OutSlot.fill]

/-! ### The own NOTICE -/

theorem takeReported_lest (lum : Rgb (BitVec 16)) (flags : Byte) (s : State) :
    (takeReported lum flags s).lest = { s.lest with lRep := some (lum.map BitVec.toNat), flagsRep := some flags } := by
  dsimp only [takeReported]
  split
  · rfl
  · rfl

/-- The reported values are tested against the present ones at once (R28, R30). -/
theorem takeReported_slc (lum : Rgb (BitVec 16)) (flags : Byte) (s : State) :
    (takeReported lum flags s).slc =
      if (takeReported lum flags s).lest.significant then earlyRequest s.sid.st s.slc else s.slc := by
  rw [takeReported_lest]
  dsimp only [takeReported]
  split
  next h => exact (if_pos h).symm
  next h => exact (if_neg h).symm

/-- What the completed NOTICE leaves of estimator and signalling (R28, R75, R77): the evaluation that follows finds spacing 0, so
that it defers at most. -/
theorem noticeDone_reported {x : State} (hrun : x.sid.st = .run) (src tgt : Byte) (lum : Rgb (BitVec 16)) (flags : Byte) :
    (noticeDone ⟨src, tgt, .notice lum flags⟩ x).lest =
        { x.lest with lRep := some (lum.map BitVec.toNat), flagsRep := some flags } ∧
      (noticeDone ⟨src, tgt, .notice lum flags⟩ x).slc = { x.slc with
        spacing := 0, reportTimer := some x.period
        deferred := (noticeDone ⟨src, tgt, .notice lum flags⟩ x).lest.significant && x.slc.notice.content.isNone } := by
  refine ⟨takeReported_lest _ _ _, ?_⟩
  refine (takeReported_slc _ _ _).trans ?_
  rw [show takeReported _ _ _ = noticeDone ⟨src, tgt, .notice lum flags⟩ x from rfl, State.setSlc_sid, hrun, State.setSlc_slc]
  cases (noticeDone ⟨src, tgt, .notice lum flags⟩ x).lest.significant with
  | false => simp
  | true =>
    cases hn : x.slc.notice.content with
    | none =>
      simp [earlyRequest_defers (l := { x.slc with spacing := 0, deferred := false, reportTimer := some x.period }) hn]
    | some _ =>
      simp [earlyRequest_pending (l := { x.slc with spacing := 0, deferred := false, reportTimer := some x.period }), hn]

/-- The state in which an own main part that completes in ACTIVE reaches its owner: the counts have fallen, the slot is emptied and
the window open (R63, R72, R147). -/
def mainCompleted (k : Kind) (f : Frame) (s : State) : State :=
  (s.setSlc (((s.slc.release .none).completeSlot k).openWindow f true)).setFc
    { s.fc with tec := s.fc.tec - 1, recCount := s.fc.recCount - 1 }

/-- Such a completion is handed to its owner, and then to the event unit alone. -/
theorem ownComplete_active {s : State} {k : Kind} {f : Frame} {h : Frame → State → State} (hf : s.slc.ownFrame k = some f)
    (hlink : s.fc.link = .active) (hh : ∀ x, (h f x).fc = x.fc) :
    ownComplete k h s = handEvents 0 (h f (mainCompleted k f s)) := by
  have hfc : s.fc.validMain true = { s.fc with tec := s.fc.tec - 1, recCount := s.fc.recCount - 1 } := by
    simp [Fc.validMain, hlink]
  simp only [ownComplete, hf, hfc]
  exact linkHandOff_same (by rw [hh]; rfl)

/-- Settles O24: the counts and the window as for every own main part, and of the NOTICE its reported values and the one
evaluation (`noticeDone_reported`). -/
theorem ownNoticeCompletes : Obligations.OwnNoticeCompletes := by
  unfold Obligations.OwnNoticeCompletes
  intro s src tgt lum flags p hlive htx hphase hmark hlink hrun hp
  have hown : s.slc.ownFrame .notice = some ⟨src, tgt, .notice lum flags⟩ := by
    simp [Slc.ownFrame, htx, hphase, hmark, Body.kind]
  have hx := ownComplete_active (h := noticeDone) hown hlink (by simp)
  have honly : OnlyChanges [.slc, .fc, .lest, .evu] s (ownComplete .notice noticeDone s) := fun b hb => by
    rw [hx]
    cases b <;> simp_all [SameBlock, mainCompleted]
  have hperiod : s.period = p.period := by simp only [State.period, hp]
  obtain ⟨hlest, hslc⟩ := noticeDone_reported (x := mainCompleted .notice ⟨src, tgt, .notice lum flags⟩ s) hrun src tgt lum flags
  have hfc : (noticeDone ⟨src, tgt, .notice lum flags⟩ (mainCompleted .notice ⟨src, tgt, .notice lum flags⟩ s)).fc =
      { s.fc with tec := s.fc.tec - 1, recCount := s.fc.recCount - 1 } := by
    simp [mainCompleted]
  refine ⟨_, (whenLive_of_live hlive).trans (congrArg Host.Outcome.next hx), ?_⟩
  rw [hx] at honly
  generalize noticeDone ⟨src, tgt, .notice lum flags⟩ (mainCompleted .notice ⟨src, tgt, .notice lum flags⟩ s) = y at *
  rw [WindowOpened]
  simp only [handEvents_frame]
  refine ⟨by rw [hslc]; exact ⟨rfl, rfl⟩, by rw [hslc]; rfl, by rw [hslc]; rfl, by rw [hslc],
    by rw [hslc]; exact congrArg some hperiod, hlest, fun hsig => by rw [hslc, hsig]; rfl, fun hsig hheld => ?_, hfc,
    by rw [hslc]; rfl, by rw [hslc]; rfl, by rw [hslc]; rfl, honly⟩
  have hempty : (mainCompleted .notice ⟨src, tgt, .notice lum flags⟩ s).slc.notice.content = none := hheld
  rw [hslc, hsig, hempty]
  rfl

/-! ### Aged slots -/

/-- Without a wait what the removal hands over starts the claim at once, and one on its way too (R105, R119). -/
theorem removeSlots_claims {p : Params} {s : State} (hst : s.sid.st = .unaddressed)
    (h : (∃ a : Addr, (s.ptab.slots.get a).remove p.removalPoint ≠ s.ptab.slots.get a) ∨ s.sid.emptied = true) :
    removeSlots false p s = claimFromSeed (slotsRemoved p s) := by
  obtain ⟨-, hsid, -⟩ := slotsRemoved_keeps p s
  rw [removeSlots_eq]
  split
  next hsame =>
    have he : s.sid.emptied = true := h.resolve_left fun ⟨a, ha⟩ => by
      rw [slots_eq_iff] at hsame
      exact ha ((Ptab.updateAll_get _ _ _).symm.trans (hsame a))
    rw [takeHandOff_eq, if_pos (by simp [hsid, he, hst])]
  next => rw [handOverEmptied_unaddressed (by rw [hsid]; exact hst), if_neg (by simp)]

/-- Settles O42: the tests of R113 as the two rows make them, and the hand-offs after each. -/
theorem agedSlotsGoStaleAndEmpty : Obligations.AgedSlotsGoStaleAndEmpty := by
  unfold Obligations.AgedSlotsGoStaleAndEmpty
  intro s p hlive hp
  have hstale : slotStale s = settle (staleSlots p s) := by simp only [slotStale, hp]
  have hremoval : slotRemoval s = removeSlots false p s := by simp only [slotRemoval, hp]
  obtain ⟨hget, -⟩ := removeSlots_keeps false p s
  obtain ⟨haddressed, hunaddressed⟩ := removeSlots_handsOver false p s
  obtain ⟨hfc, hsid, -, hslc, -⟩ := slotsRemoved_keeps p s
  refine ⟨⟨slotStale s, whenLive_of_live hlive, fun a => ?stale, ?works, ?evaluated, fun b hb => ?staleOnly⟩,
    slotRemoval s, whenLive_of_live hlive, fun a => ?removed, fun hst => ?addressed,
    fun hst hstake => ⟨fun h => ?claim, fun hall he => ?none⟩, fun b hb => ?removalOnly⟩
  case stale =>
    rw [hstale, settle_ptab, staleSlots_get]
    cases s.ptab.slots.get a <;> rfl
  case works =>
    rw [hstale]
    exact settle_engineWorks (by simpa using hp) fun h => by simpa using h
  case evaluated =>
    rw [hstale]
    exact settle_evaluatedAlone (by simp) (by simp) (by simp) (by simp) (by simp)
  case staleOnly => cases b <;> simp_all [SameBlock]
  case removed =>
    rw [hremoval, hget]
    cases s.ptab.slots.get a <;> rfl
  case addressed => rw [hremoval, haddressed hst, hsid]
  case claim =>
    rw [hremoval] at h ⊢
    rw [removeSlots_claims hst (h.imp_left fun ⟨a, ha⟩ => ⟨a, (PeerSlot.remove_ne_self _ _).mpr (by rwa [hget] at ha)⟩)]
    exact claimFromSeed_claims hfc (by rw [hsid]) (by simp [hsid, hst]) (by rw [hslc]; exact hstake)
  case none =>
    rw [hremoval] at hall ⊢
    obtain ⟨-, hnone⟩ := (hunaddressed hst).2 he
    rw [hnone fun a => ?_, hsid]
    by_contra hne
    obtain ⟨h, hn⟩ := (PeerSlot.remove_ne_self _ _).mp hne
    exact hn (hall a (by rw [hget]; exact h))
  case removalOnly => cases b <;> simp_all [SameBlock]

end Sys2Proof.Machine
end

section
/-! SUPPORT. The significant-change test and the early requests that it hands: O40. -/

namespace Sys2Proof.Machine

/-! ### The test -/

theorem lumChanged_iff (l rep : Nat) : lumChanged l rep = true ↔ rep ≤ ((l : Int) - (rep : Int)).natAbs * 64 := by
  simp [lumChanged]

/-- The significant-change test as R29 words it. -/
theorem Lest.significant_iff (e : Lest) : e.significant = true ↔
    ∃ l rep flags, e.l = some l ∧ e.lRep = some rep ∧ e.flagsRep = some flags ∧
      ((∃ c : Channel, rep.get c ≤ ((l.get c : Int) - (rep.get c : Int)).natAbs * 64) ∨ e.ownFlags ≠ flags) := by
  unfold Lest.significant
  split
  next l rep flags hl hr hf =>
    have hchannels : (lumChanged l.r rep.r || lumChanged l.g rep.g || lumChanged l.b rep.b) = true ↔
        ∃ c : Channel, rep.get c ≤ ((l.get c : Int) - (rep.get c : Int)).natAbs * 64 := by
      simp only [Bool.or_eq_true, lumChanged_iff]
      refine ⟨?_, fun ⟨c, hc⟩ => ?_⟩
      · rintro ((h | h) | h)
        · exact ⟨.r, h⟩
        · exact ⟨.g, h⟩
        · exact ⟨.b, h⟩
      · cases c with
        | r => exact .inl (.inl hc)
        | g => exact .inl (.inr hc)
        | b => exact .inr hc
    rw [Bool.or_eq_true, hchannels, bne_iff_ne]
    refine ⟨fun h => ⟨l, rep, flags, hl, hr, hf, h⟩, ?_⟩
    rintro ⟨l', rep', flags', hl', hr', hf', h⟩
    obtain rfl := Option.some.inj (hl.symm.trans hl')
    obtain rfl := Option.some.inj (hr.symm.trans hr')
    obtain rfl := Option.some.inj (hf.symm.trans hf')
    exact h
  next hnone =>
    refine iff_of_false (by simp) ?_
    rintro ⟨l, rep, flags, hl, hr, hf, -⟩
    exact hnone l rep flags hl hr hf

/-! ### Early requests -/

/-- An early request in RUN leaves a NOTICE pending or a request deferred (R76). -/
theorem earlyRequest_served (l : Slc) :
    (earlyRequest .run l).notice.content.isSome ∨ (earlyRequest .run l).deferred = true := by
  cases hn : l.notice.content with
  | some _ =>
    have h : l.notice.content.isSome := by simp [hn]
    rw [earlyRequest_pending h]
    exact .inl h
  | none =>
    by_cases hs : l.spacing < 4
    · rw [earlyRequest_defers hn hs]
      exact .inr rfl
    · left
      simp [earlyRequest, Slc.wantNotice, Slc.noticePending, Slc.fillNotice, OutSlot.fill, hn, hs]

/-- The last of the flags is NOSYNC (R180). -/
theorem flagsByte_nosync (hot crit tfault uncal settling senseFault belowFloor nosync : Bool) :
    (flagsByte hot crit tfault uncal settling senseFault belowFloor nosync).getLsbD 7 = nosync := by
  revert hot crit tfault uncal settling senseFault belowFloor nosync
  decide

/-- After a hand-off that has found the own entry another, with the test holding, the request stands in RUN (R30, R76). -/
theorem FollowsHandOff.requested {s x t : State} (hx : Prepared s x) (ht : FollowsHandOff (settle x) t) (he : EngineInv s)
    (hl : s.csto.loaded.isSome) (hrun : t.sid.st = .run) (hchange : t.lest.l ≠ s.lest.l ∨ t.lest.ownFlags ≠ s.lest.ownFlags)
    (hsig : t.lest.significant = true) : t.slc.notice.content.isSome ∨ t.slc.deferred = true := by
  obtain ⟨-, hlest, -, hst, hnotice, hdeferred⟩ := ht
  obtain ⟨hc, hown, -, hisSome, -⟩ := hx
  obtain ⟨p, hp⟩ := Option.isSome_iff_exists.mp hl
  obtain ⟨hsome, htold, -⟩ := he.2 p hp
  obtain ⟨lum, hlum⟩ := Option.isSome_iff_exists.mp hsome
  obtain ⟨lum', hlum'⟩ := Option.isSome_iff_exists.mp (hisSome hsome)
  obtain ⟨-, howner, hslc⟩ := settle_loaded (hc.trans hp) hlum'
  have hrun' : x.sid.st = .run := by simpa using hst hrun
  have hentry : (settle x).tge.own ≠ x.tge.own := by
    rw [howner, hown, (htold lum hlum).1]
    rw [hlest, settle_lest, hlum, hlum', ← settle_lest] at hchange
    simp only [ne_eq, Option.some.injEq, Entry.mk.injEq]
    tauto
  rw [if_pos ⟨hentry, hlest ▸ hsig⟩, hrun'] at hslc
  rw [hnotice, hdeferred, hslc]
  exact earlyRequest_served x.slc

/-- Whatever the command, one after which own triple or own flags are others and the test holds leaves the request (R30, R76). -/
theorem exec_requests {c : Instr} {s t : State} (h : exec c s = .next t) (he : EngineInv s) (hl : s.csto.loaded.isSome) :
    t.sid.st = .run → t.lest.l ≠ s.lest.l ∨ t.lest.ownFlags ≠ s.lest.ownFlags → t.lest.significant = true →
      t.slc.notice.content.isSome ∨ t.slc.deferred = true := by
  have hsame {u : State} (hlum : u.lest.l = s.lest.l) (hflags : u.lest.ownFlags = s.lest.ownFlags)
      (hchange : u.lest.l ≠ s.lest.l ∨ u.lest.ownFlags ≠ s.lest.ownFlags) : False :=
    hchange.elim (· hlum) (· hflags)
  refine exec_cases (P := fun t => t.sid.st = .run → t.lest.l ≠ s.lest.l ∨ t.lest.ownFlags ≠ s.lest.ownFlags →
    t.lest.significant = true → t.slc.notice.content.isSome ∨ t.slc.deferred = true) h ?same ?reset ?load ?keeps ?hands
  case same => exact fun _ hchange _ => (hsame rfl rfl hchange).elim
  case reset => exact fun hrun => nomatch hrun
  case load => exact fun hn => by simp [hn] at hl
  case keeps =>
    intro hc _ hchange _
    obtain ⟨-, hlest, -⟩ := exec_keepsViewed hc h
    exact (hsame (by rw [hlest]) (by rw [hlest]) hchange).elim
  case hands =>
    rintro (⟨-, hlest, -⟩ | ⟨x, hx, ht⟩) hrun hchange hsig
    · exact (hsame (by rw [hlest]) (by rw [hlest]) hchange).elim
    · exact ht.requested hx he hl hrun hchange hsig

/-! ### The rows of R75 and R76 -/

/-- A substitute tick in RUN that raises NOSYNC: the one evaluation finds the own flags changed, over the count that the tick has
raised (R2, R30, R76). -/
theorem substituteTick_requests {s : State} {e : Nat} {p : Params} {l : Rgb Nat} (hnotice : s.slc.notice = .empty)
    (hp : s.csto.loaded = some p) (hrun : s.sid.st = .run) (hsync : s.ftb.nosync = false) (hflags : OwnFlagsInv s)
    (hl : s.lest.l = some l) (hown : s.tge.own = some ⟨l, s.lest.ownFlags⟩) {u : State}
    (hu : u = settle (tick (s.setFtb { lastEdge := s.ftb.lastEdge, syncTimer := some e, nosync := true }))) :
    u.lest = { s.lest with ownFlags := u.flags } ∧ u.lest.ownFlags.getLsbD 7 = true ∧
      (u.lest.significant = true →
        if 3 ≤ s.slc.spacing then u.slc.notice.content = some () ∧ u.slc.deferred = s.slc.deferred
        else u.slc.notice = .empty ∧ u.slc.deferred = true) ∧
      (u.lest.significant = false → u.slc.notice = .empty ∧ u.slc.deferred = s.slc.deferred) := by
  obtain ⟨count, hcount, -, heval⟩ : ∃ count : Slc, count = { s.slc with spacing := min 4 (s.slc.spacing + 1) } ∧
      Evaluated count (s.setFtb { lastEdge := s.ftb.lastEdge, syncTimer := some e, nosync := true }) u := by
    obtain ⟨-, -, -, -, -, -, -, -, -, heval, -⟩ :=
      tick_reached (s := s.setFtb { lastEdge := s.ftb.lastEdge, syncTimer := some e, nosync := true }) hp
    exact ⟨_, rfl, hu ▸ heval⟩
  have hval := heval l (by simp [hp]) hl hown
  have hempty : count.notice = .empty := by rw [hcount]; exact hnotice
  have hspacing : count.spacing = min 4 (s.slc.spacing + 1) := by rw [hcount]
  have hdeferred : count.deferred = s.slc.deferred := by rw [hcount]
  have hlest : u.lest = { s.lest with ownFlags := u.flags } := by rw [hu]; simpa using settle_lest (tick (s.setFtb _))
  have hnosync : u.ftb.nosync = true := by simp [hu]
  have hbit : u.lest.ownFlags.getLsbD 7 = true := by
    rw [hlest]
    exact (flagsByte_nosync _ _ _ _ _ _ _ _).trans hnosync
  have hchange : u.lest.ownFlags ≠ s.lest.ownFlags := fun h => by
    rw [h, hflags, State.flags, flagsByte_nosync, hsync] at hbit
    cases hbit
  refine ⟨hlest, hbit, fun hsig => ?_, fun hsig => ?_⟩
  · rw [if_pos ⟨.inr hchange, hsig⟩, State.setFtb_sid, hrun] at hval
    rw [hval.1, hval.2]
    split
    next hs => rw [earlyRequest_fills hempty (by omega)]; exact ⟨rfl, hdeferred⟩
    next hs => rw [earlyRequest_defers (by rw [hempty]; rfl) (by omega)]; exact ⟨hempty, rfl⟩
  · rw [if_neg fun h => by rw [h.2] at hsig; cases hsig] at hval
    exact ⟨hval.1.trans hempty, hval.2.trans hdeferred⟩

/-- Settles O40: the two rows, the substitute tick, every command (`exec_requests`), the test and the request as they stand. -/
theorem dueReportsFillOrDefer : Obligations.DueReportsFillOrDefer := by
  unfold Obligations.DueReportsFillOrDefer
  refine ⟨fun s hlive hnotice => ⟨fun hrun hdue => ?due, fun hfull hdeferred => ?full, ?tick⟩,
    fun c s t h he hl => exec_requests h he hl, Lest.significant_iff,
    fun st l => ⟨fun h => earlyRequest_notRun h l, fun h => earlyRequest_pending h st,
      fun hn hs => earlyRequest_fills hn (by omega), fun hn hs => earlyRequest_defers (by rw [hn]; rfl) hs⟩⟩
  case due =>
    have hx : exec .reportTimerDue s = .next (s.setSlc (earlyRequest .run s.slc)) :=
      (whenLive_of_live hlive).trans (congrArg Host.Outcome.next (if_pos (by simp [hrun, hdue])))
    refine ⟨_, hx, ?_, fun b hb => ?_⟩
    · rw [State.setSlc_slc]
      split
      next hs => exact earlyRequest_defers (by rw [hnotice]; rfl) hs
      next hs => exact earlyRequest_fills hnotice hs
    · cases b <;> simp_all [SameBlock]
  case full =>
    have hx : exec .spacingCountFull s = .next (s.setSlc { s.slc.fillNotice with deferred := false }) :=
      (whenLive_of_live hlive).trans (congrArg Host.Outcome.next (if_pos (by simp [hfull, hdeferred])))
    refine ⟨_, hx, ?_, fun b hb => ?_⟩
    · simp [Slc.fillNotice, hnotice, OutSlot.fill_empty]
    · cases b <;> simp_all [SameBlock]
  case tick =>
    intro e p l rep flags he hp hrun hsync hflags hl hown _ _
    exact ⟨_, exec_substituteTick_running hlive he, substituteTick_requests hnotice hp hrun hsync hflags hl hown rfl⟩

end Sys2Proof.Machine
end

section
/-! SUPPORT. Another station's main part at its EOB, and the return to ACTIVE that it may bring: O26. -/

namespace Sys2Proof.Machine

/-! ### The return to ACTIVE -/

theorem Ptab.firstFree_congr {t u : Ptab} (h : t.slots = u.slots) (start : Addr) (all : Bool) :
    t.firstFree start all = u.firstFree start all := by simp only [Ptab.firstFree, h]

/-- In ACTIVE a choice outside RUN is made at once (R93, R94, R105). -/
theorem chooseCandidate_choiceMade {z : State} (hl : z.fc.link = .active) (hst : z.sid.st ≠ .run) (start : Addr) (all : Bool) :
    ChoiceMade start all z (chooseCandidate start all z) := by
  unfold ChoiceMade
  simp only [Ptab.firstFree_congr (chooseCandidate_slots start all z)]
  refine ⟨fun n hn => ?_, fun hn => ?_⟩
  · rw [chooseCandidate_found hl hn]
    refine ⟨rfl, fun hstake => ?_⟩
    simp [Slc.fillStake, hstake, OutSlot.fill_empty]
  · rw [chooseCandidate_notFound hl hn, enterUnaddressed_sid, enterUnaddressed_slc hst]
    refine ⟨rfl, fun hstake => ?_⟩
    simp [hstake, OutSlot.withdraw, OutSlot.empty]

/-- The link has returned to ACTIVE: a claimant's waiting choice is made, where the event has left identity and STAKE slot of a
claimant as they were in `s` (R93, R150). -/
theorem linkHandOff_waitingChoiceMade {old : LinkState} {s y : State} (hl : y.fc.link = .active) (hold : old ≠ .active)
    (hy : s.sid.st = .claiming → y.sid = s.sid ∧ y.slc.stake = s.slc.stake) :
    WaitingChoiceMade s (linkHandOff old y) := by
  intro start all hst hcandidate hsearch hdecision
  obtain ⟨hsid, hstake⟩ := hy hst
  have hz : (linkTaken old y).sid = s.sid := (linkTaken_sid old y).trans hsid
  have hzstake : (linkTaken old y).slc.stake = s.slc.stake := by rw [linkTaken_slc hold]; exact hstake
  have hzlink : (linkTaken old y).fc.link = .active := by simpa [linkTaken] using hl
  have hchosen : linkChosen (linkTaken old y) = chooseCandidate start all (linkTaken old y) := by
    simp [linkChosen, resumeChoice, hz, hdecision, hsearch, hst, hcandidate, hzlink]
  have hmade := chooseCandidate_choiceMade hzlink (by simp [hz, hst]) start all
  rw [linkHandOff_changed (by rw [hl]; exact hold.symm), hchosen]
  unfold ChoiceMade at hmade ⊢
  simpa only [handEvents_frame, hz, hzstake] using hmade

theorem handEvents_sid (pulses : EventSet) (s : State) : (handEvents pulses s).sid = s.sid := rfl

/-- Where no choice waits, or the link state stays, identity is as it was. -/
theorem linkHandOff_sid {old : LinkState} {y : State} (h : y.sid.search = none ∨ y.fc.link = old) :
    (linkHandOff old y).sid = y.sid := by
  by_cases hs : y.fc.link = old
  · rw [linkHandOff_same hs]; simp
  · have hnone : (linkTaken old y).sid.search = none := by rw [linkTaken_sid]; exact h.resolve_right hs
    have hchosen : linkChosen (linkTaken old y) = linkTaken old y := by simp [linkChosen, resumeChoice, hnone]
    rw [linkHandOff_changed hs, hchosen, handEvents_sid, linkTaken_sid]

/-! ### A valid main part of another station's -/

theorem settle_fc (x : State) : (settle x).fc = x.fc := by simp

theorem receiveMain_slc (f : Frame) (s : State) : (receiveMain f s).slc = s.slc.openWindow f false := by simp [receiveMain]

theorem receiveMain_fc (f : Frame) (s : State) : (receiveMain f s).fc = s.fc.validMain false := by simp [receiveMain]

/-- The counts of R147, R148 and R150. -/
theorem countsFall_of_fc {s u : State} (h : u.fc = s.fc.validMain false) : CountsFall s u := by
  unfold CountsFall
  rw [h]
  by_cases hq : s.fc.link = .quiet
  · simp [Fc.validMain, hq]
  · simp [Fc.validMain, hq]

/-- What changes the link state at a main part returns it to ACTIVE (R150). -/
theorem Fc.validMain_returns {f : Fc} (h : (f.validMain false).link ≠ f.link) :
    (f.validMain false).link = .active ∧ f.link ≠ .active := by
  by_cases hq : f.link = .quiet
  · simp_all [Fc.validMain]
  · simp [Fc.validMain, hq] at h

/-- The commands that bring a main part in take it as `frameReceived` does, with the handling of their kind. -/
theorem exec_mainPart {c : Instr} {f : Frame} {s : State} (hf : mainPart c = some f) (hlive : s.live) :
    ∃ h, exec c s = .next (frameReceived f h s) := by
  cases c with
  | noticeReceived | musterReceived | stakeReceived | capability | status | statusClear | identity | gains | targets
  | storeState | page | unknownSelector | arm | disarm | burn | lock | unknownCommand =>
    obtain rfl := Option.some.inj hf
    exact ⟨_, whenLive_of_live hlive⟩
  | _ => cases hf

/-- Before loading ends: counts and window alone, and the hand-off of the link state (R87). -/
theorem mainPart_loading {c : Instr} {f : Frame} {s : State} (hr : s.receiving) (hc : mainPart c = some f)
    (hf : f.malformed = false) (hl : s.csto.loaded = none) :
    ∃ u, exec c s = .next u ∧ WindowOpened f false u ∧ u.ptab.slots = s.ptab.slots ∧ CountsFall s u ∧
      u.slc.tx = s.slc.tx ∧ (s.sid.search = none → u.sid = s.sid) ∧ OnlyChanges [.slc, .fc, .ptab, .sid, .evu] s u := by
  obtain ⟨h, hx⟩ := exec_mainPart hc hr.1
  rw [frameReceived_loading hr hf hl] at hx
  have hlink : s.fc.link ≠ .active ∨ (receiveMain f s).fc.link = s.fc.link := by
    rw [receiveMain_fc]; exact s.fc.validMain_link
  obtain ⟨hslc, -⟩ := linkHandOff_keeps hlink
  rw [receiveMain_slc] at hslc
  refine ⟨_, hx, ?_, by simp, countsFall_of_fc (by simp [receiveMain_fc]), by rw [hslc]; rfl, fun hs => ?_,
    fun b hb => by cases b <;> simp_all [SameBlock]⟩
  · rw [WindowOpened, hslc]
    exact ⟨rfl, rfl⟩
  · rw [linkHandOff_sid (.inl (by simpa using hs))]
    simp

/-! ### Another station's NOTICE -/

theorem notice_wellFormed (a : Addr) (lum : Rgb (BitVec 16)) (flags : Byte) :
    (⟨addrByte a, 62, .notice lum flags⟩ : Frame).malformed = false := by
  simp [Frame.malformed, Body.kind, Body.payload, Kind.lengthOk, Kind.sourceOk, Kind.targetOk, bytes16, a.isLt]

/-- Of identity and signalling the duplicate test moves the re-assertion and the STAKE slot alone (R103). -/
theorem duplicateTest_keeps (src : Byte) (s : State) :
    (duplicateTest src s).sid = { s.sid with reassert := (duplicateTest src s).sid.reassert } ∧
      (duplicateTest src s).slc = { s.slc with stake := (duplicateTest src s).slc.stake } := by
  dsimp only [duplicateTest]
  split
  · split
    · simp [Slc.fillStake]
    · exact ⟨rfl, rfl⟩
  · exact ⟨rfl, rfl⟩

/-- It moves nothing outside RUN, or where the source is not the own address. -/
theorem duplicateTest_none {src : Byte} {s : State} (h : s.sid.st ≠ .run ∨ ∀ o, s.sid.own = some o → src ≠ addrByte o) :
    duplicateTest src s = s := by
  unfold duplicateTest
  split
  next o ho =>
    rw [if_neg]
    simp only [Bool.and_eq_true, decide_eq_true_eq]
    rintro ⟨⟨hrun, hsrc⟩, -⟩
    exact h.elim (· hrun) fun h => h o ho hsrc
  next => rfl

/-- The state in which the NOTICE of address `a` has been delivered (R63, R78, R87). -/
def noticeDelivered (a : Addr) (lum : Rgb (BitVec 16)) (flags : Byte) (s : State) : State :=
  peerReport a (lum.map BitVec.toNat) flags
    (duplicateTest (addrByte a) (receiveMain ⟨addrByte a, 62, .notice lum flags⟩ s))

theorem exec_noticeReceived {s : State} (hr : s.receiving) (hl : s.csto.loaded.isSome) (a : Addr) (lum : Rgb (BitVec 16))
    (flags : Byte) :
    exec (.noticeReceived (addrByte a) lum flags) s =
      .next (linkHandOff s.fc.link (settle (noticeDelivered a lum flags s))) := by
  have hd : deliver ⟨addrByte a, 62, .notice lum flags⟩ (receiveMain ⟨addrByte a, 62, .notice lum flags⟩ s) =
      noticeDelivered a lum flags s := by
    simp [deliver, deliverToTable, noticeDelivered, hl]
  refine (whenLive_of_live hr.1).trans (congrArg Host.Outcome.next ?_)
  rw [frameReceived_eq hr (notice_wellFormed a lum flags) hl, hd]

/-- The report acts on its source's slot, and on no other (R110). -/
theorem noticeDelivered_slots (a : Addr) (lum : Rgb (BitVec 16)) (flags : Byte) (s : State) :
    (noticeDelivered a lum flags s).ptab.slots.get a = (s.ptab.slots.get a).report (lum.map BitVec.toNat) flags ∧
      ∀ b : Addr, b ≠ a → (noticeDelivered a lum flags s).ptab.slots.get b = s.ptab.slots.get b := by
  simpa [noticeDelivered, peerReport] using actOnSlot_slots a (PeerSlot.report (lum.map BitVec.toNat) flags)
    (duplicateTest (addrByte a) (receiveMain ⟨addrByte a, 62, .notice lum flags⟩ s))

theorem PeerSlot.report_eq (lum : Rgb Nat) (flags : Byte) (x : PeerSlot) :
    x.report lum flags = if x = .self then .self else .fresh lum flags 0 0 := by cases x <;> simp [PeerSlot.report]

/-- What the deliveries leave of identity and signalling. -/
theorem noticeDelivered_keeps (a : Addr) (lum : Rgb (BitVec 16)) (flags : Byte) (s : State) :
    (noticeDelivered a lum flags s).sid.st = s.sid.st ∧
      (noticeDelivered a lum flags s).slc = { s.slc.openWindow ⟨addrByte a, 62, .notice lum flags⟩ false with
        stake := (noticeDelivered a lum flags s).slc.stake, ask := (noticeDelivered a lum flags s).slc.ask } ∧
      (s.sid.st ≠ .run ∨ s.sid.own ≠ some a →
        (noticeDelivered a lum flags s).sid = s.sid ∧ (noticeDelivered a lum flags s).slc.stake = s.slc.stake) := by
  obtain ⟨hsid, hslc⟩ := duplicateTest_keeps (addrByte a) (receiveMain ⟨addrByte a, 62, .notice lum flags⟩ s)
  have hreport : (noticeDelivered a lum flags s).slc =
      { (duplicateTest (addrByte a) (receiveMain ⟨addrByte a, 62, .notice lum flags⟩ s)).slc with
        ask := (noticeDelivered a lum flags s).slc.ask } := askUpdate_slc _
  have hid : (noticeDelivered a lum flags s).sid =
      (duplicateTest (addrByte a) (receiveMain ⟨addrByte a, 62, .notice lum flags⟩ s)).sid := by simp [noticeDelivered]
  refine ⟨?_, ?_, fun h => ?_⟩
  · rw [hid, hsid]; simp
  · rw [hreport, hslc, receiveMain_slc]
  · have hnone := duplicateTest_none (src := addrByte a) (s := receiveMain ⟨addrByte a, 62, .notice lum flags⟩ s)
      (h.imp (fun hst => by simpa using hst) fun hne o ho e => hne (by simpa [addrByte_inj.mp e] using ho))
    rw [hid, hreport, hnone, receiveMain_slc]
    exact ⟨by simp, rfl⟩

/-- What follows a command, as `EngineWorks` has it, reads estimator, engine, CRIT and contributions. -/
theorem EngineWorks.congr {p : Params} {s u v : State} (h : EngineWorks p s u) (hl : v.lest = u.lest) (ht : v.tge = u.tge)
    (hm : v.tmon = u.tmon) (hs : v.ptab.slots = u.ptab.slots) : EngineWorks p s v := by
  unfold EngineWorks EngineTold ContributionsFollow at h ⊢
  rw [hl, ht, hm, hs]
  exact h

/-- An early request reads NOTICE slot, deferred request and spacing count alone. -/
theorem earlyRequest_reads {l l' : Slc} (hn : l'.notice = l.notice) (hd : l'.deferred = l.deferred) (hs : l'.spacing = l.spacing)
    (st : IdState) :
    (earlyRequest st l').notice = (earlyRequest st l).notice ∧ (earlyRequest st l').deferred = (earlyRequest st l).deferred := by
  have hpending : l'.noticePending = l.noticePending := by simp only [Slc.noticePending, hn]
  unfold earlyRequest Slc.wantNotice
  rw [hpending, hs]
  split_ifs with hst hp hlow
  · exact ⟨hn, hd⟩
  · exact ⟨hn, rfl⟩
  · have hc : l.notice.content = none := by simpa [Slc.noticePending] using hp
    simp [Slc.fillNotice, OutSlot.fill, hn, hc, hd]
  · exact ⟨hn, hd⟩

/-- The evaluation reads of the signalling before it, and of that after it, what an early request reads and moves. -/
theorem Evaluated.congr {l l' : Slc} {s u v : State} (h : Evaluated l s u) (hn : l'.notice = l.notice)
    (hd : l'.deferred = l.deferred) (hs : l'.spacing = l.spacing) (hl : v.lest = u.lest) (hvn : v.slc.notice = u.slc.notice)
    (hvd : v.slc.deferred = u.slc.deferred) : Evaluated l' s v := by
  obtain ⟨hrn, hrd⟩ := earlyRequest_reads hn hd hs s.sid.st
  unfold Evaluated at h ⊢
  rw [hl, hvn, hvd, hn, hd, hrn, hrd]
  exact h

/-- Settles O26: the deliveries of the NOTICE, the hand-off after them (`settle`), and last the link state's. -/
theorem noticeMakesTheSlotFresh : Obligations.NoticeMakesTheSlotFresh := by
  unfold Obligations.NoticeMakesTheSlotFresh
  refine fun s hr => ⟨fun a lum flags hl => ?_, fun c f hc hf hn => mainPart_loading hr hc hf hn⟩
  have honly : OnlyChanges [.slc, .fc, .ptab, .sid, .lest, .tge, .evu] s
      (linkHandOff s.fc.link (settle (noticeDelivered a lum flags s))) := fun b hb => by
    cases b <;> simp_all [SameBlock, noticeDelivered]
  obtain ⟨hself, hothers⟩ := noticeDelivered_slots a lum flags s
  obtain ⟨hst, hslc, hkept⟩ := noticeDelivered_keeps a lum flags s
  have hx := exec_noticeReceived hr hl a lum flags
  have hsame : (noticeDelivered a lum flags s).csto = s.csto ∧ (noticeDelivered a lum flags s).tge = s.tge ∧
      (noticeDelivered a lum flags s).lest = s.lest ∧ (noticeDelivered a lum flags s).fc = s.fc.validMain false := by
    simp [noticeDelivered, receiveMain_fc]
  generalize noticeDelivered a lum flags s = x at *
  obtain ⟨hcsto, htge, hlest, hfc⟩ := hsame
  have hlink : s.fc.link ≠ .active ∨ (settle x).fc.link = s.fc.link := by
    rw [settle_fc, hfc]; exact s.fc.validMain_link
  obtain ⟨hhanded, -⟩ := linkHandOff_keeps hlink
  have hsettled := settle_slc_fields x
  have hufc : (linkHandOff s.fc.link (settle x)).fc = s.fc.validMain false := by simp [hfc]
  refine ⟨_, hx, ?window, ?fresh, fun b hb => ?others, countsFall_of_fc hufc, fun p hp => ?works, ?evaluated,
    fun hown hsearch => ?identity, fun hne => ?choice, honly⟩
  case window =>
    rw [WindowOpened, hhanded, hsettled, hslc]
    exact ⟨rfl, rfl⟩
  case fresh =>
    rw [linkHandOff_slots, settle_ptab, hself, PeerSlot.report_eq]
  case others => rw [linkHandOff_slots, settle_ptab, hothers b hb]
  case works =>
    exact (settle_engineWorks (by rw [hcsto, hp]) fun h => by rwa [htge]).congr (by simp) (by simp) (by simp) (by simp)
  case evaluated =>
    refine (settle_evaluated (l := s.slc.openWindow ⟨addrByte a, 62, .notice lum flags⟩ false) (by rw [hcsto]) (by rw [htge])
      (by rw [hlest]; exact id) (by rw [hst]) ?_).congr rfl rfl rfl (by simp) (by rw [hhanded]) (by rw [hhanded])
    rw [hslc]
  case identity =>
    obtain ⟨hsid, -⟩ := hkept (.inr hown)
    have hy : (settle x).sid = s.sid := (settle_sid x).trans hsid
    rw [linkHandOff_sid ?_, hy]
    rw [hy]
    refine hsearch.imp_right fun h => ?_
    rw [hufc] at h
    simpa [hfc] using h
  case choice =>
    rw [hufc] at hne
    obtain ⟨hactive, hold⟩ := Fc.validMain_returns hne
    refine linkHandOff_waitingChoiceMade (by simpa [hfc] using hactive) hold fun hclaiming => ?_
    obtain ⟨hsid, hstake⟩ := hkept (.inl (by simp [hclaiming]))
    exact ⟨(settle_sid x).trans hsid, by rw [hsettled]; exact hstake⟩

end Sys2Proof.Machine
end

section
/-! SUPPORT. The sense drive (O53): the ends at which the sequencer rests, and for each command that moves a round what it
does to state, channel and drive. -/

namespace Sys2Proof.Machine

/-! ### The sequencer's own operations -/

/-- The reference group is lit in the current channel in ARMED and WAIT, and dark otherwise (R35, R47). -/
def Sseq.DriveFollows (q : Sseq) : Prop := q.drive = if q.st = .armed ∨ q.st = .wait then some q.chan else none

/-- No window is in use: the sequencer is in IDLE or DUE. -/
def Sseq.Rests (q : Sseq) : Prop := q.st = .idle ∨ q.st = .due

/-- All that `DriveFollows` reads is the same in both. -/
def Sseq.SameRound (q r : Sseq) : Prop := r.st = q.st ∧ r.chan = q.chan ∧ r.drive = q.drive

theorem Sseq.DriveFollows.congr {q r : Sseq} (h : q.DriveFollows) (k : q.SameRound r) : r.DriveFollows := by
  obtain ⟨hst, hchan, hdrive⟩ := k
  unfold Sseq.DriveFollows
  rw [hst, hchan, hdrive]
  exact h

theorem Sseq.Rests.driveFollows_iff {q : Sseq} (h : q.Rests) : q.DriveFollows ↔ q.drive = none := by
  unfold Sseq.DriveFollows
  rcases h with h | h
  · simp [h]
  · simp [h]

theorem Sseq.driveFollows_of_lit {q : Sseq} (h : q.st = .armed ∨ q.st = .wait) (hd : q.drive = some q.chan) :
    q.DriveFollows := hd.trans (if_pos h).symm

theorem Sseq.abandon_rests (q : Sseq) : q.abandon.Rests ∧ q.abandon.drive = q.drive := by
  dsimp only [Sseq.abandon, Sseq.settlingEnds]
  split
  · exact ⟨.inl rfl, rfl⟩
  · exact ⟨.inl rfl, rfl⟩

theorem Sseq.failed_rests (q : Sseq) : q.failed.Rests ∧ q.failed.drive = q.drive := by
  dsimp only [Sseq.failed]
  split
  · exact q.abandon_rests
  · exact ⟨.inr rfl, rfl⟩

theorem Sseq.roundComplete_rests (q : Sseq) (limit : Nat) : (q.roundComplete limit).Rests := by
  dsimp only [Sseq.roundComplete, Sseq.settlingEnds]
  split
  · split
    · exact .inl rfl
    · exact .inr rfl
  · exact .inl rfl

theorem Sseq.accepted_rests (q : Sseq) (limit : Nat) : (q.accepted limit).Rests := by
  dsimp only [Sseq.accepted]
  split
  · exact .inr rfl
  · exact .inr rfl
  · exact Sseq.roundComplete_rests _ _

theorem Sseq.load_rests (q : Sseq) (p : Params) (tfault : Bool) :
    (q.load p tfault).Rests ∧ (q.load p tfault).drive = q.drive := by
  unfold Sseq.load
  split
  · exact ⟨.inl rfl, rfl⟩
  · exact ⟨.inr rfl, rfl⟩

/-! ### Carrying the invariant -/

theorem senseDriveInv_iff (s : State) :
    SenseDriveInv s ↔ (s.csto.loaded = none → s.sseq.st = .idle) ∧ s.sseq.DriveFollows := Iff.rfl

theorem SenseDriveInv.congr {s t : State} (h : SenseDriveInv s) (hc : t.csto.loaded = s.csto.loaded)
    (k : s.sseq.SameRound t.sseq) : SenseDriveInv t := by
  obtain ⟨hidle, hdrive⟩ := (senseDriveInv_iff s).mp h
  exact ⟨fun hn => k.1.trans (hidle (hc ▸ hn)), hdrive.congr k⟩

theorem SenseDriveInv.of_same {s t : State} (h : SenseDriveInv s) (hc : t.csto.loaded = s.csto.loaded)
    (hq : t.sseq = s.sseq) : SenseDriveInv t := h.congr hc (by rw [hq]; exact ⟨rfl, rfl, rfl⟩)

/-- From the end of loading on the invariant is about the drive alone; a round that has started is then on (R34). -/
theorem SenseDriveInv.of_started {s t : State} (h : SenseDriveInv s) (hst : s.sseq.st ≠ .idle)
    (hc : t.csto.loaded = s.csto.loaded) (hd : t.sseq.DriveFollows) : SenseDriveInv t :=
  ⟨fun hn => absurd (h.1 (hc ▸ hn)) hst, hd⟩

theorem senseDriveInv_of_loaded {s : State} {p : Params} (hp : s.csto.loaded = some p) (hd : s.sseq.DriveFollows) :
    SenseDriveInv s := ⟨fun hn => by simp [hp] at hn, hd⟩

theorem senseDriveInv_settle {s : State} (h : SenseDriveInv s) : SenseDriveInv (settle s) :=
  h.of_same (by rw [settle_csto]) (settle_sseq s)

/-- A waiting count that starts takes ARMED to WAIT: the drive stays lit (R36). -/
theorem senseDriveInv_busNext {s : State} (h : SenseDriveInv s) : SenseDriveInv (busNext s) := by
  have hl : (busNext s).csto.loaded = s.csto.loaded := by simp
  by_cases ha : s.sseq.st = .armed
  · refine h.of_started (by simp [ha]) hl ?_
    have hlit : s.sseq.drive = some s.sseq.chan := by simpa [ha] using h.2
    rw [busNext_sseq]
    refine Sseq.driveFollows_of_lit ?_ hlit
    dsimp only [stateAfterBus]
    split
    · exact .inr rfl
    · exact .inl ha
  · exact h.of_same hl (busNext_sseq_notArmed ha)

/-! ### The commands that move a round -/

theorem senseDriveInv_resetState (s : State) : SenseDriveInv (resetState s) := ⟨fun _ => rfl, rfl⟩

/-- Loading ends with the drive dark, as IDLE had it, and the sequencer in DUE or IDLE (R34). -/
theorem senseDriveInv_endOfLoading {s : State} (h : SenseDriveInv s) (hn : s.csto.loaded = none) (p : Params) :
    SenseDriveInv (endOfLoading p s) := by
  obtain ⟨hidle, hdrive⟩ := (senseDriveInv_iff s).mp h
  have hdark : s.sseq.drive = none := (Sseq.Rests.driveFollows_iff (.inl (hidle hn))).mp hdrive
  obtain ⟨hrests, hkept⟩ := s.sseq.load_rests p (s.tmon.load p).tfault
  refine senseDriveInv_of_loaded (p := p) (by rw [endOfLoading_csto]) ?_
  rw [endOfLoading_eq, settle_sseq, loadingTaken_sseq]
  exact hrests.driveFollows_iff.mpr (hkept.trans hdark)

theorem tickSseq_sameRound (s : State) : s.sseq.SameRound (tickSseq s).sseq := by
  unfold tickSseq
  split
  · exact ⟨rfl, rfl, rfl⟩
  · exact ⟨rfl, rfl, rfl⟩

/-- A tick moves counts alone at the sequencer (R43, R45). -/
theorem tick_sameRound (s : State) : s.sseq.SameRound (tick s).sseq := by
  obtain ⟨f, w, n, he⟩ := tick_eq s
  have h := tickSseq_sameRound (tickEngine f (tickPeers w s))
  rw [he]
  simpa [tickIn] using h

theorem senseDriveInv_tick {s : State} (h : SenseDriveInv s) : SenseDriveInv (settle (tick s)) :=
  senseDriveInv_settle (h.congr (by simp) (tick_sameRound s))

theorem senseDriveInv_fsyncEdge {s : State} (h : SenseDriveInv s) (t : Nat) : SenseDriveInv (fsyncEdge t s) := by
  unfold fsyncEdge
  split
  · exact senseDriveInv_tick h
  · exact h

theorem senseDriveInv_substituteTick {s : State} (h : SenseDriveInv s) : SenseDriveInv (substituteTick s) := by
  unfold substituteTick
  split
  · exact h
  · exact senseDriveInv_tick h

theorem senseDriveInv_temperatureRead {s : State} (h : SenseDriveInv s) (o : Option Int) :
    SenseDriveInv (temperatureRead o s) := by
  by_cases hf : s.lsb.inFlight = some .temperature
  · have htaken : s.sseq.SameRound (temperatureTaken o s).sseq := by
      rw [temperatureTaken, handTemperature_sseq]
      exact ⟨rfl, rfl, rfl⟩
    rw [temperatureRead_eq hf]
    exact senseDriveInv_settle (senseDriveInv_busNext (h.congr (by simp [temperatureTaken]) htaken))
  · rw [temperatureRead, if_neg hf]
    exact h

/-- The drive turns on with the window in use, as the sequencer leaves DUE for ARMED or WAIT (R35). -/
theorem senseDriveInv_windowOpen {s : State} (h : SenseDriveInv s) : SenseDriveInv (windowOpen s) := by
  unfold windowOpen
  dsimp only
  split
  next hopen =>
    have hdue : s.sseq.st = .due := by simp_all
    refine h.of_started (by simp [hdue]) rfl (Sseq.driveFollows_of_lit ?_ rfl)
    dsimp only [State.setSseq_sseq]
    split
    · exact .inr rfl
    · exact .inl rfl
  next => exact h

/-- A failure with the drive off rests in the dark (R39, R40). -/
theorem Sseq.dark_failed_driveFollows (q : Sseq) : q.dark.failed.DriveFollows := by
  obtain ⟨hrests, hdrive⟩ := q.dark.failed_rests
  exact hrests.driveFollows_iff.mpr hdrive

theorem senseDriveInv_windowClose {s : State} (h : SenseDriveInv s) : SenseDriveInv (windowClose s) := by
  cases hst : s.sseq.st with
  | idle | due => exact h.of_same (by simp) (by simp [windowClose, hst])
  | armed =>
    rw [windowClose_armed hst]
    exact senseDriveInv_settle (h.of_started (by simp [hst]) rfl s.sseq.dark_failed_driveFollows)
  | wait =>
    rw [windowClose_wait hst]
    exact senseDriveInv_settle (h.of_started (by simp [hst]) rfl
      (s.sseq.dark_failed_driveFollows.congr ⟨rfl, rfl, rfl⟩))

/-- Whatever class a count judged in WAIT has, the drive turns off and the sequencer rests (R37 to R39, R42). -/
theorem classifyCount_driveFollows (p : Params) (o : Option (BitVec 16)) (s : State) :
    (classifyCount p o s).sseq.DriveFollows := by
  obtain ⟨hdark, -⟩ := classifyCount_sseq p o s
  refine (Sseq.Rests.driveFollows_iff ?_).mpr hdark
  unfold classifyCount
  dsimp only
  split
  · exact .inr rfl
  · split
    · exact Sseq.accepted_rests _ _
    · exact (Sseq.failed_rests _).1

theorem senseDriveInv_countOutcome {s : State} (h : SenseDriveInv s) (o : Option (BitVec 16)) :
    SenseDriveInv (countOutcome o s) := by
  unfold countOutcome
  split
  · exact h
  · split
    next p hp _ => exact senseDriveInv_of_loaded (p := p) (by simpa using hp) (classifyCount_driveFollows p o s)
    next => exact h

theorem senseDriveInv_countArrival {s : State} (h : SenseDriveInv s) (o : Option (BitVec 16)) :
    SenseDriveInv (countArrival o s) := by
  unfold countArrival
  split
  · exact senseDriveInv_settle (senseDriveInv_busNext (senseDriveInv_countOutcome h o))
  · exact h

/-- A round that the interval timer starts leaves IDLE for DUE, both dark (R43). -/
theorem senseDriveInv_intervalExpiry {s : State} (h : SenseDriveInv s) : SenseDriveInv (intervalExpiry s) := by
  unfold intervalExpiry
  split
  next p n hp _ =>
    split
    next hexp =>
      have hidle : s.sseq.st = .idle := by simp_all
      have hdark : s.sseq.drive = none := (Sseq.Rests.driveFollows_iff (.inl hidle)).mp h.2
      exact senseDriveInv_of_loaded hp ((Sseq.Rests.driveFollows_iff (.inr rfl)).mpr hdark)
    next => exact h
  next => exact h

theorem Sseq.timeout_driveFollows (q : Sseq) : q.timeout.DriveFollows := by
  obtain ⟨hrests, hdrive⟩ := q.dark.abandon_rests
  exact (hrests.driveFollows_iff.mpr hdrive).congr ⟨rfl, rfl, rfl⟩

theorem senseDriveInv_settleTimeout {s : State} (h : SenseDriveInv s) : SenseDriveInv (settleTimeout s) := by
  unfold settleTimeout
  split
  next p n hp _ =>
    split
    · exact senseDriveInv_settle (senseDriveInv_of_loaded hp s.sseq.timeout_driveFollows)
    · exact h
  next => exact h

/-! ### Every command -/

/-- The ten commands that reach the sequencer. -/
def reachesSequencer : Instr → Bool
  | .reset | .endOfLoading | .fsyncEdge _ | .substituteTick | .temperatureReadCompletion _ | .senseWindowOpen
  | .senseWindowClose | .countArrival _ | .intervalTimerExpiry | .settleTimeout => true
  | _ => false

theorem whenLive_sseq {s a t : State} (h : whenLive s a = .next t) (ha : a.sseq = s.sseq) : t.sseq = s.sseq :=
  whenLive_next (P := fun u => u.sseq = s.sseq) h rfl ha

theorem exec_sseq {c : Instr} {s t : State} (hc : reachesSequencer c = false) (h : exec c s = .next t) :
    t.sseq = s.sseq := by
  cases c with
  | reset | endOfLoading | fsyncEdge | substituteTick | temperatureReadCompletion | senseWindowOpen | senseWindowClose
  | countArrival | intervalTimerExpiry | settleTimeout => cases hc
  | resetRelease =>
    obtain rfl := Host.Outcome.next.inj h
    split
    · rfl
    · rfl
  | pollTimerExpiry =>
    refine whenLive_sseq h ?_
    split
    · rfl
    · rfl
  | receiverReady | arbitrationLoss | bitError | sendSymbolError | malformedFrame | reportTimerDue | spacingCountFull =>
    refine whenLive_sseq h ?_
    split
    · simp
    · rfl
  | _ => exact whenLive_sseq h (by simp [fixtureReceived, askReceived])

/-- The loaded copy changes at RESET and at the end of loading alone (R164). -/
theorem exec_loaded {c : Instr} {s t : State} (hc : startsBlocks c = false) (h : exec c s = .next t) :
    t.csto.loaded = s.csto.loaded := by
  by_cases hm : movesTemperature c = true
  · cases c with
    | reset | endOfLoading => cases hc
    | resetRelease =>
      obtain rfl := Host.Outcome.next.inj h
      split
      · rfl
      · rfl
    | pollTimerExpiry =>
      refine whenLive_next (P := fun u => u.csto.loaded = s.csto.loaded) h rfl ?_
      split
      · rfl
      · rfl
    | temperatureReadCompletion => exact whenLive_next (P := fun u => u.csto.loaded = s.csto.loaded) h rfl (by simp)
    | _ => cases hm
  · exact (exec_keepsTemperature (by simpa using hm) h).2

/-- Every command keeps the sense drive's invariant (R35, R47, R48). -/
theorem senseDriveInv_exec {c : Instr} {s t : State} (hs : SenseDriveInv s) (h : exec c s = .next t) : SenseDriveInv t := by
  by_cases hc : reachesSequencer c = true
  · cases c with
    | reset => exact Host.Outcome.next.inj h ▸ senseDriveInv_resetState s
    | endOfLoading =>
      refine whenLive_next h hs ?_
      split
      next hn => exact senseDriveInv_endOfLoading hs (by simpa using hn) _
      next => exact hs
    | fsyncEdge m => exact whenLive_next h hs (senseDriveInv_fsyncEdge hs m)
    | substituteTick => exact whenLive_next h hs (senseDriveInv_substituteTick hs)
    | temperatureReadCompletion o => exact whenLive_next h hs (senseDriveInv_temperatureRead hs o)
    | senseWindowOpen => exact whenLive_next h hs (senseDriveInv_windowOpen hs)
    | senseWindowClose => exact whenLive_next h hs (senseDriveInv_windowClose hs)
    | countArrival o => exact whenLive_next h hs (senseDriveInv_countArrival hs o)
    | intervalTimerExpiry => exact whenLive_next h hs (senseDriveInv_intervalExpiry hs)
    | settleTimeout => exact whenLive_next h hs (senseDriveInv_settleTimeout hs)
    | _ => cases hc
  · have hkept : reachesSequencer c = false := by simpa using hc
    have hstarts : startsBlocks c = false := by
      cases c with
      | reset | endOfLoading => cases hkept
      | _ => rfl
    exact hs.of_same (exec_loaded hstarts h) (exec_sseq hkept h)

/-- Settles O53: line time moves the signalling alone, and the ten commands that reach the sequencer keep the drive to its
state and channel. -/
theorem senseDriveInvariantKept : Obligations.SenseDriveInvariantKept := by
  unfold Obligations.SenseDriveInvariantKept
  intro s t hs h
  rcases step_cases h with rfl | rfl | ⟨c, rest, h⟩
  · exact hs
  · exact hs
  · exact senseDriveInv_exec (s := s.setPending rest) hs h

end Sys2Proof.Machine
end

section
/-! SUPPORT. The station's own sending: what ends it leaves, and that nothing is sent but what
identity and link state allow: O49. -/

namespace Sys2Proof.Machine

/-! ### The ends of a transmission -/

/-- An end without completion moves driver, transmission, mark and outbound slots alone (R72, R73). -/
theorem Slc.stop_fields (l : Slc) (m : OwnMark) :
    l.stop m = { l with
      driver := .released, tx := none, txPos := 0, mark := m, stake := (l.stop m).stake, ask := (l.stop m).ask,
      notice := (l.stop m).notice, muster := (l.stop m).muster } := by
  dsimp only [Slc.stop, Slc.release, Slc.attemptEnd]
  repeat' split
  all_goals rfl

theorem Slc.completeSlot_fields (l : Slc) (k : Kind) :
    l.completeSlot k = { l with
      stake := (l.completeSlot k).stake, ask := (l.completeSlot k).ask, notice := (l.completeSlot k).notice,
      muster := (l.completeSlot k).muster } := by
  cases k <;> rfl

/-- Nothing is sent: the driver is released, and no symbol is counted (R49). -/
def Slc.Silent (l : Slc) : Prop := l.tx = none ∧ l.driver = .released ∧ l.txPos = 0

theorem Slc.stop_silent (l : Slc) (m : OwnMark) : (l.stop m).Silent := ⟨rfl, rfl, rfl⟩

/-- While nothing is sent the driver is released. -/
def Slc.ReleasedIdle (l : Slc) : Prop := l.tx = none → l.Silent

theorem Slc.ReleasedIdle.stopped {l : Slc} (h : l.ReleasedIdle) (m : OwnMark) : (if l.tx.isSome then l.stop m else l).Silent := by
  split
  · exact l.stop_silent m
  next hn => exact h (by simpa using hn)

theorem Slc.stopped_phase (l : Slc) (m : OwnMark) :
    (if l.tx.isSome then l.stop m else l).phase = l.phase ∧
      (if l.tx.isSome then l.stop m else l).musterReply = l.musterReply := by
  split
  · rw [Slc.stop_fields]; exact ⟨rfl, rfl⟩
  · exact ⟨rfl, rfl⟩

theorem Slc.musterDone_not_waiting (l : Slc) : l.musterDone.musterReply ≠ .waiting := by
  unfold Slc.musterDone
  split
  · simp
  · simp

theorem Slc.cutOff_silent {l : Slc} (h : l.ReleasedIdle) : l.cutOff.Silent := h.stopped .stopped

theorem Slc.cutOff_phase (l : Slc) : l.cutOff.phase = l.phase ∧ l.cutOff.musterReply ≠ .waiting :=
  ⟨(l.stopped_phase .stopped).1, Slc.musterDone_not_waiting _⟩

/-! ### What the invariant reads -/

/-- The signalling's own part of `SendInv`: driver and phase fit what is being sent (R49, R52, R64). -/
def Slc.LineInv (l : Slc) : Prop :=
  (l.tx = none → l.driver = .released ∧ l.txPos = 0) ∧
    (l.sendingMain = true → l.phase = .main ∨ l.phase = .ready ∧ l.txPos = 0) ∧
    (l.sendingReply = true → l.phase = .window)

theorem sendInv_iff (s : State) :
    SendInv s ↔ SendAllowed s ∧ (s.sid.st = .load ↔ s.csto.loaded = none) ∧ s.slc.LineInv ∧
      (s.slc.musterReply = .waiting → s.sid.st = .run ∧ s.fc.link = .active) ∧ (s.fc.busStuck = true → s.slc.phase = .hunt) := by
  simp only [SendInv, Slc.LineInv, and_assoc]

theorem SendInv.releasedIdle {s : State} (h : SendInv s) : s.slc.ReleasedIdle := fun htx => by
  obtain ⟨-, -, hidle, -⟩ := h
  exact ⟨htx, hidle htx⟩

/-- A main part is sent in READY and MAIN, a reply in WINDOW, so that nothing is sent where neither fits. -/
theorem Slc.LineInv.tx_none {l : Slc} (h : l.LineInv) (hm : l.sendingMain = false) (hp : l.phase ≠ .window) : l.tx = none := by
  obtain ⟨-, -, hreply⟩ := h
  cases htx : l.tx with
  | none => rfl
  | some x =>
    cases x with
    | main f => simp [Slc.sendingMain, htx] at hm
    | _ => exact absurd (hreply (by simp [Slc.sendingReply, htx])) hp

theorem Slc.LineInv.tx_none_window {l : Slc} (h : l.LineInv) (hr : l.sendingReply = false) (hp : l.phase = .window) :
    l.tx = none := by
  obtain ⟨-, hmain, -⟩ := h
  cases htx : l.tx with
  | none => rfl
  | some x =>
    cases x with
    | main f => simp [Slc.sendingMain, htx, hp] at hmain
    | _ => simp [Slc.sendingReply, htx] at hr

theorem Slc.LineInv.tx_none_hunt {l : Slc} (h : l.LineInv) (hp : l.phase = .hunt) : l.tx = none := by
  refine h.tx_none ?_ (by simp [hp])
  obtain ⟨-, hmain, -⟩ := h
  simpa [hp] using hmain

theorem SendInv.lineInv {s : State} (h : SendInv s) : s.slc.LineInv := by
  obtain ⟨-, -, hline, -, -⟩ := (sendInv_iff s).mp h
  exact hline

theorem SendInv.stuck_hunt {s : State} (h : SendInv s) : s.fc.busStuck = true → s.slc.phase = .hunt := by
  obtain ⟨-, -, -, -, hstuck⟩ := (sendInv_iff s).mp h
  exact hstuck

theorem SendInv.load_iff {s : State} (h : SendInv s) : s.sid.st = .load ↔ s.csto.loaded = none := by
  obtain ⟨-, hload, -⟩ := h
  exact hload

theorem SendInv.waiting {s : State} (h : SendInv s) :
    s.slc.musterReply = .waiting → s.sid.st = .run ∧ s.fc.link = .active := by
  obtain ⟨-, -, -, hwaiting, -⟩ := (sendInv_iff s).mp h
  exact hwaiting

/-- Outside ACTIVE, and in an identity state other than RUN and CLAIMING, nothing is sent (R71). -/
theorem SendInv.tx_none {s : State} (h : SendInv s)
    (hno : s.fc.link ≠ .active ∨ s.sid.st ≠ .run ∧ s.sid.st ≠ .claiming) : s.slc.tx = none := by
  obtain ⟨hallowed, -⟩ := h
  cases htx : s.slc.tx with
  | none => rfl
  | some x =>
    obtain ⟨hlink, hst⟩ := hallowed x htx
    rcases hno with hno | ⟨hrun, hclaim⟩
    · exact absurd hlink hno
    · rcases hst with hst | ⟨hst, -⟩
      · exact absurd hst hrun
      · exact absurd hst hclaim

/-- What `SendInv` reads of the signalling is the same in both. -/
structure Slc.SameLine (l m : Slc) : Prop where
  tx : m.tx = l.tx
  driver : m.driver = l.driver
  txPos : m.txPos = l.txPos
  phase : m.phase = l.phase
  musterReply : m.musterReply = l.musterReply

theorem Slc.LineInv.congr {l m : Slc} (h : l.LineInv) (k : l.SameLine m) : m.LineInv := by
  unfold Slc.LineInv Slc.sendingMain Slc.sendingReply at h ⊢
  rw [k.tx, k.driver, k.txPos, k.phase]
  exact h

theorem Slc.SameLine.refl (l : Slc) : l.SameLine l := ⟨rfl, rfl, rfl, rfl, rfl⟩

theorem Slc.SameLine.trans {l m n : Slc} (h : l.SameLine m) (k : m.SameLine n) : l.SameLine n :=
  ⟨k.tx.trans h.tx, k.driver.trans h.driver, k.txPos.trans h.txPos, k.phase.trans h.phase, k.musterReply.trans h.musterReply⟩

/-- All that `SendInv` reads is the same in both. -/
structure SameSending (s t : State) : Prop where
  line : s.slc.SameLine t.slc
  st : t.sid.st = s.sid.st
  link : t.fc.link = s.fc.link
  busStuck : t.fc.busStuck = s.fc.busStuck
  loaded : t.csto.loaded = s.csto.loaded

theorem SendInv.congr {s t : State} (h : SendInv s) (k : SameSending s t) : SendInv t := by
  rw [sendInv_iff] at h ⊢
  unfold SendAllowed at h ⊢
  obtain ⟨hallowed, hload, hline, hwait, hstuck⟩ := h
  rw [k.line.tx, k.line.musterReply, k.line.phase, k.st, k.link, k.busStuck, k.loaded]
  exact ⟨hallowed, hload, hline.congr k.line, hwait, hstuck⟩

theorem SameSending.refl (s : State) : SameSending s s := ⟨.refl _, rfl, rfl, rfl, rfl⟩

theorem SameSending.trans {s t u : State} (h : SameSending s t) (k : SameSending t u) : SameSending s u :=
  ⟨h.line.trans k.line, k.st.trans h.st, k.link.trans h.link, k.busStuck.trans h.busStuck, k.loaded.trans h.loaded⟩

/-! ### States in which nothing is sent -/

/-- Nothing is sent and no muster reply waits. -/
def Slc.Resting (l : Slc) : Prop := l.Silent ∧ l.musterReply ≠ .waiting

theorem lineInv_of_silent {l : Slc} (h : l.Silent) : l.LineInv := by
  obtain ⟨htx, hline⟩ := h
  exact ⟨fun _ => hline, fun hm => by simp [Slc.sendingMain, htx] at hm, fun hr => by simp [Slc.sendingReply, htx] at hr⟩

theorem sendInv_of_silent {t : State} (hs : t.slc.Silent) (hl : t.sid.st = .load ↔ t.csto.loaded = none)
    (hw : t.slc.musterReply = .waiting → t.sid.st = .run ∧ t.fc.link = .active)
    (hb : t.fc.busStuck = true → t.slc.phase = .hunt) : SendInv t :=
  (sendInv_iff t).mpr ⟨fun x hx => by simp [hs.1] at hx, hl, lineInv_of_silent hs, hw, hb⟩

theorem sendInv_of_resting {t : State} (hr : t.slc.Resting) (hl : t.sid.st = .load ↔ t.csto.loaded = none)
    (hb : t.fc.busStuck = true → t.slc.phase = .hunt) : SendInv t :=
  sendInv_of_silent hr.1 hl (fun hw => absurd hw hr.2) hb

/-- A transmission ends, or none runs, with identity and link state as they were. -/
theorem SendInv.silenced {s t : State} (h : SendInv s) (hs : t.slc.Silent)
    (hw : t.slc.musterReply = .waiting → s.slc.musterReply = .waiting) (hst : t.sid.st = s.sid.st)
    (hlink : t.fc.link = s.fc.link) (hl : t.csto.loaded = s.csto.loaded)
    (hb : t.fc.busStuck = true → t.slc.phase = .hunt) : SendInv t := by
  refine sendInv_of_silent hs ?_ (fun hwt => ?_) hb
  · rw [hst, hl]; exact h.load_iff
  · rw [hst, hlink]; exact h.waiting (hw hwt)

/-! ### Identity's moves -/

/-- Nothing that is not sent starts to be sent, no muster reply begins to wait, the driver rests while nothing is sent, and a
station out of LOAD stays out of it. -/
structure StaysSilent (s t : State) : Prop where
  releasedIdle : s.slc.ReleasedIdle → t.slc.ReleasedIdle
  tx : s.slc.tx = none → t.slc.tx = none
  notWaiting : s.slc.musterReply ≠ .waiting → t.slc.musterReply ≠ .waiting
  phase : t.slc.phase = s.slc.phase
  notLoad : s.sid.st ≠ .load → t.sid.st ≠ .load

theorem StaysSilent.refl (s : State) : StaysSilent s s := ⟨id, id, id, rfl, id⟩

theorem StaysSilent.trans {s t u : State} (h : StaysSilent s t) (k : StaysSilent t u) : StaysSilent s u :=
  ⟨k.releasedIdle ∘ h.releasedIdle, k.tx ∘ h.tx, k.notWaiting ∘ h.notWaiting, k.phase.trans h.phase, k.notLoad ∘ h.notLoad⟩

theorem staysSilent_ite {c : Prop} [Decidable c] {s a b : State} (ha : StaysSilent s a) (hb : StaysSilent s b) :
    StaysSilent s (if c then a else b) := by
  split
  · exact ha
  · exact hb

theorem staysSilent_of_sameLine {s t : State} (h : s.slc.SameLine t.slc) (hst : s.sid.st ≠ .load → t.sid.st ≠ .load) :
    StaysSilent s t := by
  refine ⟨?_, fun hn => h.tx.trans hn, fun hn => by rw [h.musterReply]; exact hn, h.phase, hst⟩
  unfold Slc.ReleasedIdle Slc.Silent
  rw [h.tx, h.driver, h.txPos]
  exact id

theorem staysSilent_of_same {s t : State} (h : t.slc = s.slc) (hst : t.sid.st = s.sid.st) : StaysSilent s t :=
  staysSilent_of_sameLine (by rw [h]; exact .refl _) (by rw [hst]; exact id)

theorem askUpdate_sameLine (s : State) : s.slc.SameLine (askUpdate s).slc := by
  rw [askUpdate_slc]
  exact ⟨rfl, rfl, rfl, rfl, rfl⟩

theorem staysSilent_askUpdate (s : State) : StaysSilent s (askUpdate s) :=
  staysSilent_of_sameLine (askUpdate_sameLine s) (by simp)

theorem staysSilent_actOnSlot (a : Addr) (f : PeerSlot → PeerSlot) (s : State) : StaysSilent s (actOnSlot a f s) :=
  StaysSilent.trans (t := s.setPtab (s.ptab.update a f)) (staysSilent_of_same rfl rfl) (staysSilent_askUpdate _)

theorem staysSilent_handEvents (pulses : EventSet) (s : State) : StaysSilent s (handEvents pulses s) :=
  staysSilent_of_same rfl rfl

/-- A transmission cut off (R74). -/
theorem staysSilent_setSlc {s : State} {l : Slc} (hl : s.slc.ReleasedIdle → l.Silent) (htx : l.tx = none)
    (hw : l.musterReply ≠ .waiting) (hp : l.phase = s.slc.phase) : StaysSilent s (s.setSlc l) :=
  ⟨fun h _ => hl h, fun _ => htx, fun _ => hw, hp, id⟩

theorem Slc.cutOff_tx (l : Slc) : l.cutOff.tx = none := by
  unfold Slc.cutOff
  split
  · rfl
  next h =>
    have hn : l.tx = none := by simpa using h
    exact hn

theorem staysSilent_cutOff (s : State) : StaysSilent s (s.setSlc s.slc.cutOff) :=
  staysSilent_setSlc Slc.cutOff_silent s.slc.cutOff_tx s.slc.cutOff_phase.2 s.slc.cutOff_phase.1

theorem staysSilent_leaveRun (s : State) : StaysSilent s (s.setSlc s.slc.leaveRun) :=
  (staysSilent_cutOff s).trans (staysSilent_of_sameLine ⟨rfl, rfl, rfl, rfl, rfl⟩ id)

theorem staysSilent_changeIdentity {new : IdState} (hn : new ≠ .load) (s : State) : StaysSilent s (changeIdentity new s) := by
  have hleft : StaysSilent s (s.setSlc (if s.sid.st = .run && new != .run then s.slc.leaveRun else s.slc)) := by
    split
    · exact staysSilent_leaveRun s
    · exact .refl s
  dsimp only [changeIdentity]
  generalize (if s.sid.st = .run && new != .run then s.slc.leaveRun else s.slc) = l at hleft
  have hid : StaysSilent (s.setSlc l) (((s.setSid { s.sid with st := new }).setSlc l).setPtab { s.ptab with heldId := new }) :=
    staysSilent_of_sameLine (.refl _) fun _ => hn
  exact ((hleft.trans hid).trans (staysSilent_askUpdate _)).trans (staysSilent_handEvents 0 _)

theorem staysSilent_enterUnaddressed (s : State) : StaysSilent s (enterUnaddressed s) :=
  StaysSilent.trans (t := withdrawStake (s.setSid { s.sid with candidate := none, search := none }))
    (staysSilent_of_sameLine ⟨rfl, rfl, rfl, rfl, rfl⟩ id) (staysSilent_changeIdentity (by simp) _)

theorem staysSilent_chooseCandidate (start : Addr) (all : Bool) (s : State) :
    StaysSilent s (chooseCandidate start all s) := by
  unfold chooseCandidate
  split
  · split
    · exact staysSilent_of_sameLine ⟨rfl, rfl, rfl, rfl, rfl⟩ id
    · exact staysSilent_enterUnaddressed s
  · exact staysSilent_of_sameLine ⟨rfl, rfl, rfl, rfl, rfl⟩ id

theorem staysSilent_claimFromSeed (s : State) : StaysSilent s (claimFromSeed s) :=
  have hentered : StaysSilent s (claimEntered s) :=
    StaysSilent.trans (t := s.setSid { s.sid with attempts := 0, candidate := none, listen := none, emptied := false })
      (staysSilent_of_same rfl rfl) (staysSilent_changeIdentity (by simp) _)
  hentered.trans (staysSilent_chooseCandidate _ _ (claimEntered s))

theorem staysSilent_slotEmptied (s : State) : StaysSilent s (slotEmptied s) :=
  staysSilent_ite (staysSilent_claimFromSeed s) (.refl s)

theorem staysSilent_resumeChoice (s : State) : StaysSilent s (resumeChoice s) := by
  unfold resumeChoice
  split
  · exact staysSilent_ite (staysSilent_chooseCandidate _ _ s) (.refl s)
  · exact .refl s

theorem staysSilent_giveUp (c : Addr) (s : State) : StaysSilent s (giveUp c s) := by
  dsimp only [giveUp]
  generalize hy : s.setSid { s.sid with attempts := s.sid.attempts + 1, candidate := none } = y
  have hcounted : StaysSilent s y := by rw [← hy]; exact staysSilent_of_same rfl rfl
  exact hcounted.trans (staysSilent_ite (staysSilent_enterUnaddressed y) (staysSilent_chooseCandidate _ _ y))

theorem staysSilent_takeAddress (c : Addr) (s : State) : StaysSilent s (takeAddress c s) := by
  dsimp only [takeAddress]
  refine StaysSilent.trans ?_ (staysSilent_changeIdentity (by simp) _)
  exact staysSilent_of_sameLine ⟨rfl, rfl, rfl, rfl, rfl⟩ id

theorem staysSilent_yieldAddress (a : Addr) (s : State) : StaysSilent s (yieldAddress a s) := by
  dsimp only [yieldAddress]
  generalize hy : withdrawStake (handEvents evAddrYield _) = y
  have hleft : StaysSilent s (changeIdentity .claiming y) := by
    refine StaysSilent.trans ?_ (staysSilent_changeIdentity (by simp) y)
    rw [← hy]
    exact staysSilent_of_sameLine ⟨rfl, rfl, rfl, rfl, rfl⟩ id
  exact hleft.trans (staysSilent_ite (staysSilent_of_same rfl rfl) (staysSilent_chooseCandidate _ _ _))

/-! ### A change of link state -/

theorem linkTaken_frame (old : LinkState) (s : State) : (linkTaken old s).fc = s.fc ∧ (linkTaken old s).csto = s.csto := by
  simp [linkTaken]

theorem linkChosen_frame (s : State) : (linkChosen s).fc = s.fc ∧ (linkChosen s).csto = s.csto := by
  unfold linkChosen
  split
  · exact ⟨rfl, rfl⟩
  · simp

theorem staysSilent_linkChosen (s : State) : StaysSilent s (linkChosen s) :=
  staysSilent_ite (.refl s) (staysSilent_resumeChoice s)

/-- The state with another link state: what a hand-off finds, before the change that it hands on. -/
def State.withLink (s : State) (k : LinkState) : State := s.setFc { s.fc with link := k }

@[simp] theorem State.withLink_slc (s : State) (k : LinkState) : (s.withLink k).slc = s.slc := rfl
@[simp] theorem State.withLink_sid (s : State) (k : LinkState) : (s.withLink k).sid = s.sid := rfl
@[simp] theorem State.withLink_csto (s : State) (k : LinkState) : (s.withLink k).csto = s.csto := rfl
@[simp] theorem State.withLink_busStuck (s : State) (k : LinkState) : (s.withLink k).fc.busStuck = s.fc.busStuck := rfl

/-- The hand-off of a link state that has left ACTIVE cuts a transmission off; one that has come to it, or moved outside it, finds
nothing sent (R71, R74). So the invariant holds after it where it held with the link state before the change. -/
theorem sendInv_linkHandOff {old : LinkState} {y : State} (h : SendInv (y.withLink old)) :
    SendInv (linkHandOff old y) := by
  by_cases hl : y.fc.link = old
  · rw [linkHandOff_same hl]
    refine h.congr ⟨⟨rfl, rfl, rfl, rfl, rfl⟩, rfl, hl, rfl, rfl⟩
  · rw [linkHandOff_changed hl]
    have htaken : (linkTaken old y).slc.Resting ∧ (linkTaken old y).slc.phase = y.slc.phase := by
      have hsame := askUpdate_sameLine ((y.setSlc (if old = .active then y.slc.cutOff else y.slc)).setPtab
        { y.ptab with heldLink := y.fc.link })
      unfold Slc.Resting Slc.Silent linkTaken
      rw [hsame.tx, hsame.driver, hsame.txPos, hsame.phase, hsame.musterReply]
      dsimp only [State.setPtab_slc, State.setSlc_slc]
      split
      next ha => exact ⟨⟨Slc.cutOff_silent h.releasedIdle, y.slc.cutOff_phase.2⟩, y.slc.cutOff_phase.1⟩
      next ha => exact ⟨⟨h.releasedIdle (h.tx_none (.inl ha)), fun hw => ha (h.waiting hw).2⟩, rfl⟩
    obtain ⟨⟨hsilent, hwait⟩, hphase⟩ := htaken
    have hstays := staysSilent_linkChosen (linkTaken old y)
    obtain ⟨-, -, hst⟩ := linkChosen_keeps (linkTaken old y)
    rw [linkTaken_sid] at hst
    obtain ⟨hfc, hcsto⟩ := linkChosen_frame (linkTaken old y)
    obtain ⟨hfc', hcsto'⟩ := linkTaken_frame old y
    rw [hfc'] at hfc
    rw [hcsto'] at hcsto
    refine SendInv.congr (s := linkChosen (linkTaken old y)) (sendInv_of_resting
      ⟨hstays.releasedIdle (fun _ => hsilent) (hstays.tx hsilent.1), hstays.notWaiting hwait⟩ ?_ fun hb => ?_) ?_
    · rw [hcsto]
      refine Iff.trans ?_ h.load_iff
      rcases hst with hst | ⟨hst, hst'⟩
      · rw [hst]; rfl
      · simp [hst, hst']
    · rw [hstays.phase, hphase]
      rw [hfc] at hb
      exact h.stuck_hunt hb
    · exact ⟨.refl _, rfl, rfl, rfl, rfl⟩

theorem sendInv_confine {f : Fc → Fc} {s : State} (hf : (f s.fc).busStuck = s.fc.busStuck) (h : SendInv s) :
    SendInv (confine f s) :=
  sendInv_linkHandOff (h.congr ⟨.refl _, rfl, rfl, hf, rfl⟩)

/-- With nothing sent and no muster reply waiting, out of LOAD, what stays silent keeps the invariant. -/
theorem SendInv.rested {s t : State} (h : SendInv s) (htx : s.slc.tx = none) (hw : s.slc.musterReply ≠ .waiting)
    (hst : s.sid.st ≠ .load) (k : StaysSilent s t) (hfc : t.fc.busStuck = s.fc.busStuck) (hc : t.csto = s.csto) : SendInv t := by
  refine sendInv_of_resting ⟨k.releasedIdle h.releasedIdle (k.tx htx), k.notWaiting hw⟩ ?_ fun hb => ?_
  · rw [hc]
    exact iff_of_false (k.notLoad hst) fun hn => hst (h.load_iff.mpr hn)
  · rw [k.phase]
    rw [hfc] at hb
    exact h.stuck_hunt hb

/-- In LISTEN and UNADDRESSED nothing is sent and no muster reply waits. -/
theorem SendInv.idle {s : State} (h : SendInv s) (hrun : s.sid.st ≠ .run) (hclaim : s.sid.st ≠ .claiming) :
    s.slc.tx = none ∧ s.slc.musterReply ≠ .waiting :=
  ⟨h.tx_none (.inr ⟨hrun, hclaim⟩), fun hw => hrun (h.waiting hw).1⟩

/-! ### The receiver's findings -/

theorem sendInv_malformed {s : State} (h : SendInv s) (hp : s.slc.phase = .main ∨ s.slc.phase = .ready) (f : Finding) :
    SendInv (malformed f s) := by
  have hsilent : (if s.slc.sendingMain then s.slc.stop .stopped else s.slc).Silent := by
    split
    · exact s.slc.stop_silent _
    next hm =>
      refine h.releasedIdle (h.lineInv.tx_none (by simpa using hm) fun hwin => ?_)
      simp [hwin] at hp
  have hmuster : (if s.slc.sendingMain then s.slc.stop .stopped else s.slc).musterReply = s.slc.musterReply := by
    split
    · rw [Slc.stop_fields]
    · rfl
  refine sendInv_confine rfl (h.silenced ?_ ?_ rfl rfl rfl fun hb => ?_)
  · exact hsilent
  · exact fun hw => hmuster ▸ hw
  · have hhunt := h.stuck_hunt hb
    simp [hhunt] at hp

theorem sendInv_replyError {s : State} (h : SendInv s) (hp : s.slc.phase = .window) (w : Window) (f : ReplyFinding) :
    SendInv (replyError w f s) := by
  have hsilent : (if s.slc.sendingReply then s.slc.stop .stopped else s.slc).Silent := by
    split
    · exact s.slc.stop_silent _
    next hr => exact h.releasedIdle (h.lineInv.tx_none_window (by simpa using hr) hp)
  refine sendInv_confine rfl (h.silenced ?_ ?_ rfl rfl rfl fun hb => ?_)
  · exact hsilent
  · exact fun hw => absurd hw (Slc.musterDone_not_waiting _)
  · have hhunt := h.stuck_hunt hb
    simp [hhunt] at hp

/-- A block in place lies in an open window. -/
theorem Slc.inPlace_eq_some {l : Slc} {w : Window} (h : l.inPlace = some w) :
    l.window = some w ∧ l.phase = .window ∧ w.running = true ∧ w.seen < w.frame.body.kind.blocksAllowed := by
  unfold Slc.inPlace at h
  split at h
  next v hv =>
    split at h
    next hc =>
      obtain rfl := Option.some.inj h
      simp only [Bool.and_eq_true, decide_eq_true_eq] at hc
      obtain ⟨⟨hp, hr⟩, hs⟩ := hc
      exact ⟨hv, hp, hr, hs⟩
    next => cases h
  next => cases h

theorem SendInv.setSlc {s : State} {l : Slc} (h : SendInv s) (hl : s.slc.SameLine l) : SendInv (s.setSlc l) :=
  h.congr ⟨hl, rfl, rfl, rfl, rfl⟩

theorem sendInv_startOfFrame {s : State} (h : SendInv s) (t pulse : Nat) : SendInv (startOfFrame t pulse s) := by
  cases hp : s.slc.phase with
  | hunt =>
    simp only [startOfFrame, hp]
    exact h.setSlc ⟨rfl, rfl, rfl, rfl, rfl⟩
  | ready =>
    simp only [startOfFrame, hp]
    split
    · exact h
    next hn =>
      have hsilent : s.slc.Silent := h.releasedIdle (by simpa using hn)
      split
      · refine h.silenced hsilent id rfl rfl rfl fun hb => ?_
        have hhunt := h.stuck_hunt hb
        simp [hhunt] at hp
      · exact h.setSlc ⟨rfl, rfl, rfl, rfl, rfl⟩
  | main =>
    simp only [startOfFrame, hp]
    split
    · exact h.setSlc ⟨rfl, rfl, rfl, hp.symm, rfl⟩
    · exact sendInv_malformed h (.inl hp) _
  | window =>
    simp only [startOfFrame, hp]
    split
    · split
      · exact h.setSlc ⟨rfl, rfl, rfl, hp.symm, rfl⟩
      · exact sendInv_replyError h hp _ _
    · exact h.setSlc ⟨rfl, rfl, rfl, hp.symm, rfl⟩

theorem Slc.judges_phase {l : Slc} {f : Finding} (h : l.judges f = true) : l.phase = .main ∨ l.phase = .ready := by
  cases f with
  | ownSof pulse =>
    simp only [Slc.judges, Bool.and_eq_true, decide_eq_true_eq] at h
    exact .inr h.1
  | _ => exact .inl (by simpa [Slc.judges] using h)

/-! ### Starting a frame -/

/-- What R71 allows to be chosen. -/
theorem State.chosenFrame_allowed {s : State} {f : Frame} (h : s.chosenFrame = some f) :
    s.fc.link = .active ∧
      (s.sid.st = .run ∨ s.sid.st = .claiming ∧ ∃ uid mode src tgt, Sending.main f = .main ⟨src, tgt, .stake uid mode⟩) := by
  unfold State.chosenFrame at h
  split at h
  next hlink =>
    refine ⟨hlink, ?_⟩
    cases hst : s.sid.st with
    | run => exact .inl rfl
    | claiming =>
      simp only [hst, Option.map_eq_some_iff] at h
      obtain ⟨x, -, rfl⟩ := h
      exact .inr ⟨rfl, _, _, _, _, rfl⟩
    | _ => simp [hst] at h
  next => cases h

/-- An own main part has been started, its SOF still due or its frame in MAIN. -/
theorem SendInv.startedMain {s t : State} {f : Frame} (h : SendInv s) (hf : s.chosenFrame = some f)
    (htx : t.slc.tx = some (.main f)) (hp : t.slc.phase = .main ∨ t.slc.phase = .ready ∧ t.slc.txPos = 0)
    (hw : t.slc.musterReply = s.slc.musterReply) (hsid : t.sid = s.sid) (hlink : t.fc.link = s.fc.link)
    (hb : t.fc.busStuck = false) (hc : t.csto = s.csto) : SendInv t := by
  obtain ⟨hactive, hst⟩ := State.chosenFrame_allowed hf
  refine (sendInv_iff t).mpr ⟨fun x hx => ?_, ?_, ⟨fun hn => ?_, fun _ => hp, fun hr => ?_⟩, ?_, fun hs => ?_⟩
  · obtain rfl : Sending.main f = x := Option.some.inj (htx.symm.trans hx)
    rw [hlink, hsid]
    exact ⟨hactive, hst⟩
  · rw [hsid, hc]; exact h.load_iff
  · simp [htx] at hn
  · simp [Slc.sendingReply, htx] at hr
  · rw [hw, hsid, hlink]; exact h.waiting
  · simp [hb] at hs

theorem sendInv_transmitStart {s : State} (h : SendInv s) (sof : SofSent) : SendInv (transmitStart sof s) := by
  unfold transmitStart
  split
  next hidle =>
    have hp : s.slc.phase = .ready := by simp_all
    have hb : s.fc.busStuck = false := Bool.eq_false_iff.mpr fun hb => by simp [h.stuck_hunt hb] at hp
    split
    next f hf =>
      split
      · exact h.startedMain hf rfl (.inl rfl) rfl rfl rfl hb rfl
      · exact h.startedMain hf rfl (.inr ⟨hp, rfl⟩) rfl rfl rfl hb rfl
    next => exact h.setSlc ⟨rfl, rfl, rfl, rfl, rfl⟩
  next => exact h

/-! ### Read-back and line time -/

theorem sendInv_release {s : State} {l : Slc} (h : SendInv s) (hs : l.Silent) (hp : l.phase = s.slc.phase)
    (hw : l.musterReply = .waiting → s.slc.musterReply = .waiting) : SendInv (s.setSlc l) :=
  h.silenced hs hw rfl rfl rfl fun hb => hp.trans (h.stuck_hunt hb)

theorem Slc.lose_ends {l : Slc} (h : l.tx.isSome) :
    l.lose.Silent ∧ l.lose.phase = l.phase ∧ l.lose.musterReply = l.musterReply := by
  unfold Slc.lose
  split
  · rw [Slc.stop_fields]; exact ⟨⟨rfl, rfl, rfl⟩, rfl, rfl⟩
  · exact ⟨⟨rfl, rfl, rfl⟩, rfl, rfl⟩
  · exact ⟨⟨rfl, rfl, rfl⟩, rfl, rfl⟩
  · exact ⟨⟨rfl, rfl, rfl⟩, rfl, rfl⟩
  · exact ⟨⟨rfl, rfl, rfl⟩, rfl, rfl⟩
  next hn => simp [hn] at h

/-- Only what is being sent reads back. -/
theorem Slc.readBack_sending {l : Slc} {pos pulse : Nat} {r : ReadBack} (h : l.readBack pos pulse = some r) : l.tx.isSome := by
  unfold Slc.readBack at h
  split at h
  next x hx => simp [hx]
  next => cases h

theorem Slc.stopOnError_ends (l : Slc) :
    l.stopOnError.Silent ∧ l.stopOnError.phase = l.phase ∧
      (l.stopOnError.musterReply = .waiting → l.musterReply = .waiting) := by
  unfold Slc.stopOnError
  split
  · refine ⟨⟨rfl, rfl, rfl⟩, ?_, fun hw => absurd hw (Slc.musterDone_not_waiting _)⟩
    rw [Slc.stop_fields]
    rfl
  · rw [Slc.stop_fields]; exact ⟨⟨rfl, rfl, rfl⟩, rfl, id⟩

/-- Line time at the station's own sending keeps what is sent, and drives no symbol before the SOF has started the frame. -/
theorem sendInv_partPasses {s : State} (h : SendInv s) : SendInv (s.setSlc s.slc.partPasses) := by
  have hline : s.slc.partPasses.LineInv := by
    obtain ⟨hidle, hmain, hreply⟩ := h.lineInv
    unfold Slc.partPasses
    split
    · exact ⟨hidle, hmain, hreply⟩
    next x htx _ => exact ⟨fun hn => absurd (htx.symm.trans hn) (by simp), hmain, hreply⟩
    next x htx _ =>
      unfold Slc.recessiveEnds
      split
      next hgo =>
        refine ⟨fun hn => absurd (htx.symm.trans hn) (by simp), fun hm => .inl ?_, hreply⟩
        refine (hmain hm).resolve_right fun hready => ?_
        simp [hready.1] at hgo
      next => exact ⟨hidle, hmain, hreply⟩
  have hfields := s.slc.partPasses_fields
  obtain ⟨hallowed, hload, -, hwait, hstuck⟩ := (sendInv_iff s).mp h
  refine (sendInv_iff _).mpr ⟨?_, hload, hline, ?_, ?_⟩
  · unfold SendAllowed
    rw [State.setSlc_slc, hfields]
    exact hallowed
  · rw [State.setSlc_slc, hfields]; exact hwait
  · rw [State.setSlc_slc, hfields]; exact hstuck

/-! ### Own completions -/

theorem earlyRequest_sameLine (st : IdState) (l : Slc) : l.SameLine (earlyRequest st l) := by
  rw [earlyRequest_fields]
  exact ⟨rfl, rfl, rfl, rfl, rfl⟩

theorem sameSending_settle (s : State) : SameSending s (settle s) := by
  refine ⟨?_, by simp, by simp, by simp, by simp⟩
  rw [settle_slc_fields]
  exact ⟨rfl, rfl, rfl, rfl, rfl⟩

theorem SameSending.settle {s x : State} (h : SameSending s x) : SameSending s (settle x) := h.trans (sameSending_settle x)

theorem SendInv.settle {x : State} (h : SendInv x) : SendInv (settle x) := h.congr (sameSending_settle x)

theorem takeReported_sameLine (lum : Rgb (BitVec 16)) (flags : Byte) (s : State) :
    s.slc.SameLine (takeReported lum flags s).slc := by
  rw [takeReported_slc]
  split
  · exact earlyRequest_sameLine _ _
  · exact .refl _

theorem sameSending_noticeDone (f : Frame) (s : State) : SameSending s (noticeDone f s) := by
  refine ⟨?_, by simp, by simp, by simp, by simp⟩
  dsimp only [noticeDone]
  generalize hx : s.setSlc _ = x
  have hsame : s.slc.SameLine x.slc := by
    rw [← hx]
    exact ⟨rfl, rfl, rfl, rfl, rfl⟩
  split
  · exact hsame.trans (takeReported_sameLine _ _ x)
  · exact hsame

theorem Slc.ownFrame_eq_some {l : Slc} {k : Kind} {f : Frame} (h : l.ownFrame k = some f) :
    l.tx = some (.main f) ∧ f.body.kind = k ∧ l.phase = .main ∧ l.mark = .asSent := by
  unfold Slc.ownFrame at h
  split at h
  next g hg =>
    split at h
    next hc =>
      obtain rfl := Option.some.inj h
      simp only [Bool.and_eq_true, decide_eq_true_eq] at hc
      obtain ⟨⟨hk, hp⟩, hm⟩ := hc
      exact ⟨hg, hk, hp, hm⟩
    next => cases h
  next => cases h

/-- In MAIN the line is not stuck (R157). -/
theorem SendInv.notStuck {s : State} (h : SendInv s) (hp : s.slc.phase ≠ .hunt) : s.fc.busStuck = false :=
  Bool.eq_false_iff.mpr fun hb => hp (h.stuck_hunt hb)

theorem SameSending.withLink {s t : State} (h : SameSending s t) (k : LinkState) : SameSending (s.withLink k) (t.withLink k) :=
  ⟨h.line, h.st, rfl, h.busStuck, h.loaded⟩

theorem sendInv_ownComplete {s : State} (h : SendInv s) (k : Kind) {handle : Frame → State → State}
    (hh : ∀ f x, SameSending x (handle f x)) : SendInv (ownComplete k handle s) := by
  unfold ownComplete
  split
  next f hf =>
    obtain ⟨-, -, hp, -⟩ := Slc.ownFrame_eq_some hf
    have hb : s.fc.busStuck = false := h.notStuck (by simp [hp])
    refine sendInv_linkHandOff (SendInv.congr ?_ ((hh f _).withLink s.fc.link))
    refine h.silenced ?_ ?_ rfl rfl rfl fun hs => absurd (hb.symm.trans hs) (by simp)
    · dsimp only [State.withLink_slc, State.setFc_slc, State.setSlc_slc, Slc.openWindow]
      rw [Slc.completeSlot_fields]
      exact ⟨rfl, rfl, rfl⟩
    · dsimp only [State.withLink_slc, State.setFc_slc, State.setSlc_slc, Slc.openWindow]
      rw [Slc.completeSlot_fields]
      exact id
  next => exact h

/-! ### Main parts of other stations -/

/-- A reply starts in an open window. -/
theorem Slc.start_lineInv {l : Slc} {x : Sending} (hx : ∀ f, x ≠ .main f) (hp : l.phase = .window) : (l.start x).LineInv := by
  refine ⟨fun hn => (nomatch hn), fun hm => ?_, fun _ => hp⟩
  cases x with
  | main f => exact absurd rfl (hx f)
  | _ => cases hm

/-- A reply of a station in RUN and ACTIVE (R71). -/
theorem SendInv.startedReply {s t : State} {x : Sending} {l : Slc} (h : SendInv s) (hrun : s.sid.st = .run)
    (hlink : s.fc.link = .active) (hp : s.slc.phase = .window) (hx : ∀ f, x ≠ .main f) (hl : t.slc = l.start x)
    (hlp : l.phase = s.slc.phase) (hst : t.sid.st = s.sid.st) (htl : t.fc.link = s.fc.link)
    (hb : t.fc.busStuck = s.fc.busStuck) (hc : t.csto.loaded = s.csto.loaded) : SendInv t := by
  refine (sendInv_iff t).mpr ⟨fun _ _ => ⟨htl.trans hlink, .inl (hst.trans hrun)⟩, ?_, ?_,
    fun _ => ⟨hst.trans hrun, htl.trans hlink⟩, fun hs => ?_⟩
  · rw [hst, hc]; exact h.load_iff
  · rw [hl]; exact Slc.start_lineInv hx (hlp.trans hp)
  · rw [hb] at hs
    have hhunt := h.stuck_hunt hs
    simp [hhunt] at hp

/-- The handling of a main part, once its window is open, keeps the invariant read with the link state of its EOB. -/
def KeepsSending (handle : LinkState → State → State) : Prop :=
  ∀ k x, SendInv (x.withLink k) → x.slc.tx = none → x.slc.phase = .window → SendInv ((handle k x).withLink k)

theorem mayReply_iff {k : LinkState} {s : State} : mayReply k s = true ↔ k = .active ∧ s.sid.st = .run := by
  simp [mayReply]

theorem keepsSending_settle : KeepsSending fun _ => settle := fun k x h _ _ => h.congr ((sameSending_settle x).withLink k)

theorem keepsSending_musterReplyStart (start : Byte) : KeepsSending (musterReplyStart start) := fun k x h _ hp => by
  unfold musterReplyStart
  split
  next a _ =>
    split
    next hgo =>
      simp only [Bool.and_eq_true, mayReply_iff] at hgo
      obtain ⟨⟨hk, hrun⟩, -⟩ := hgo
      exact h.startedReply hrun hk hp (x := .muster (addrByte a)) (by simp) rfl rfl rfl rfl rfl rfl
    next => exact h
  next => exact h

/-- A station that leaves RUN sends nothing, and drops out of a muster reply (R74, R80). -/
theorem changeIdentity_resting {s : State} {new : IdState} (hrun : s.sid.st = .run) (hn : new ≠ .run)
    (hidle : s.slc.ReleasedIdle) : (changeIdentity new s).slc.Resting := by
  have hsame := askUpdate_sameLine (((s.setSid { s.sid with st := new }).setSlc s.slc.leaveRun).setPtab
    { s.ptab with heldId := new })
  have hslc : (changeIdentity new s).slc = (askUpdate (((s.setSid { s.sid with st := new }).setSlc s.slc.leaveRun).setPtab
      { s.ptab with heldId := new })).slc := by
    simp [changeIdentity, hrun, hn]
  obtain ⟨hsilent, hwait⟩ : s.slc.leaveRun.Resting := ⟨Slc.cutOff_silent hidle, s.slc.cutOff_phase.2⟩
  unfold Slc.Resting Slc.Silent
  rw [hslc, hsame.tx, hsame.driver, hsame.txPos, hsame.musterReply]
  exact ⟨hsilent, hwait⟩

theorem yieldAddress_resting {s : State} (hrun : s.sid.st = .run) (hidle : s.slc.ReleasedIdle) (a : Addr) :
    (yieldAddress a s).slc.Resting := by
  dsimp only [yieldAddress]
  generalize hy : withdrawStake (handEvents evAddrYield _) = y
  have hrest : (changeIdentity .claiming y).slc.Resting := by
    refine changeIdentity_resting ?_ (by simp) ?_
    · rw [← hy]; exact hrun
    · rw [← hy]; exact hidle
  split
  · exact hrest
  · have hstays := staysSilent_chooseCandidate (addrAfter a 1) false (changeIdentity .claiming y)
    obtain ⟨⟨htx, hdriver⟩, hnotWaiting⟩ := hrest
    exact ⟨hstays.releasedIdle (fun _ => ⟨htx, hdriver⟩) (hstays.tx htx), hstays.notWaiting hnotWaiting⟩

theorem sendInv_yieldAddress {s : State} {k : LinkState} (h : SendInv (s.withLink k)) (hrun : s.sid.st = .run) (a : Addr) :
    SendInv ((yieldAddress a s).withLink k) := by
  have hstays := staysSilent_yieldAddress a s
  have hnl : s.sid.st ≠ .load := by simp [hrun]
  refine sendInv_of_resting (yieldAddress_resting hrun h.releasedIdle a) ?_ fun hb => ?_
  · have hc : (yieldAddress a s).csto = s.csto := by simp
    simp only [State.withLink_csto, State.withLink_sid, hc]
    exact iff_of_false (hstays.notLoad hnl) fun hn => hnl (h.load_iff.mpr hn)
  · have hb' : s.fc.busStuck = true := by simpa using hb
    exact hstays.phase.trans (h.stuck_hunt hb')

theorem keepsSending_stakeAtEob (tgt : Byte) (uid : BitVec 64) (mode : Byte) : KeepsSending (stakeAtEob tgt uid mode) :=
  fun k x h _ hp => by
    unfold stakeAtEob
    split
    next a _ =>
      split
      next hgo =>
        simp only [Bool.and_eq_true, mayReply_iff] at hgo
        obtain ⟨⟨hk, hrun⟩, -⟩ := hgo
        split
        · exact h.startedReply hrun hk hp (x := .contest (addrByte a)) (by simp) rfl rfl rfl rfl rfl rfl
        · exact sendInv_yieldAddress (s := x.setSid { x.sid with decision := .yielding })
            (h.congr ⟨.refl _, rfl, rfl, rfl, rfl⟩) hrun a
      next => exact h
    next => exact h

theorem keepsSending_askAtEob (tgt selector : Byte) : KeepsSending (askAtEob tgt selector) := fun k x h _ hp => by
  unfold askAtEob
  split
  next a _ =>
    split
    next hgo =>
      simp only [Bool.and_eq_true, mayReply_iff] at hgo
      obtain ⟨⟨hk, hrun⟩, -⟩ := hgo
      unfold giveAnswer
      dsimp only
      split
      · exact h.startedReply hrun hk hp (x := .answer _ _) (by simp) rfl rfl rfl rfl rfl rfl
      · exact h.startedReply hrun hk hp (x := .answer _ _) (by simp) rfl rfl rfl rfl rfl rfl
    next => exact h
  next => exact h

theorem keepsSending_fixtureAtEob (tgt code : Byte) (args : List Byte) : KeepsSending (fixtureAtEob tgt code args) :=
  fun k x h _ hp => by
    unfold fixtureAtEob
    split
    next a _ =>
      dsimp only
      split
      · split
        next hgo =>
          obtain ⟨hk, hrun⟩ := mayReply_iff.mp hgo
          exact h.startedReply hrun hk hp (x := .status _) (by simp) rfl rfl rfl rfl rfl (Csto.fixture_loaded _ _ _)
        next => exact h.congr ⟨.refl _, rfl, rfl, rfl, Csto.fixture_loaded _ _ _⟩
      · exact h
    next => exact h

theorem sameSending_actOnSlot (a : Addr) (f : PeerSlot → PeerSlot) (s : State) : SameSending s (actOnSlot a f s) :=
  ⟨askUpdate_sameLine (s.setPtab (s.ptab.update a f)), by simp, by simp, by simp, by simp⟩

theorem sameSending_signOfLife (x : Byte) (s : State) : SameSending s (signOfLife x s) := by
  unfold signOfLife
  split
  · exact sameSending_actOnSlot _ _ s
  · exact .refl s

theorem sameSending_duplicateTest (src : Byte) (s : State) : SameSending s (duplicateTest src s) := by
  obtain ⟨hsid, hslc⟩ := duplicateTest_keeps src s
  refine ⟨?_, by rw [hsid], by simp, by simp, by simp⟩
  rw [hslc]
  exact ⟨rfl, rfl, rfl, rfl, rfl⟩

theorem sameSending_deliverToTable (f : Frame) (s : State) : SameSending s (deliverToTable f s) := by
  unfold deliverToTable
  split
  · split
    · exact sameSending_actOnSlot _ _ s
    · exact .refl s
  · exact sameSending_signOfLife _ s
  · exact sameSending_signOfLife _ s
  · exact sameSending_signOfLife _ s
  · exact .refl s

theorem sameSending_deliver (f : Frame) (s : State) : SameSending s (deliver f s) := by
  unfold deliver
  split
  · exact (sameSending_duplicateTest f.src s).trans (sameSending_deliverToTable f _)
  · exact .refl s

theorem sendInv_frameReceived {s : State} (h : SendInv s) (f : Frame) {handle : LinkState → State → State}
    (hh : KeepsSending handle) : SendInv (frameReceived f handle s) := by
  unfold frameReceived
  split
  next hrec =>
    simp only [Bool.and_eq_true, decide_eq_true_eq, Bool.not_eq_true'] at hrec
    obtain ⟨hp, hm⟩ := hrec
    split
    · have hsilent := h.releasedIdle (h.lineInv.tx_none hm (by simp [hp]))
      have hopened : SendInv ((receiveMain f s).withLink s.fc.link) :=
        h.silenced hsilent id rfl rfl rfl fun hb => absurd ((h.notStuck (by simp [hp])).symm.trans hb) (by simp)
      have hsame := sameSending_deliver f (receiveMain f s)
      have hdelivered := hopened.congr (hsame.withLink s.fc.link)
      refine sendInv_linkHandOff ?_
      split
      · exact hh _ _ hdelivered (hsame.line.tx.trans hsilent.1) hsame.line.phase
      · exact hdelivered
    · exact sendInv_malformed h (.inl hp) _
  next => exact h

/-! ### Replies -/

theorem Slc.passOver_sameLine (l : Slc) (n : Nat) : l.SameLine (l.passOver n) := by
  rw [Slc.passOver_fields]
  exact ⟨rfl, rfl, rfl, rfl, rfl⟩

theorem Slc.takeBlock_sameLine (l : Slc) (w : Window) : l.SameLine (l.takeBlock w) := ⟨rfl, rfl, rfl, rfl, rfl⟩

theorem sameSending_deliverLife (v : Byte) (s : State) : SameSending s (deliverLife v s) := by
  unfold deliverLife
  split
  · exact sameSending_signOfLife v s
  · exact .refl s

/-- Another station's block is delivered in an open window, with no reply of the station's own on the line. -/
theorem Slc.blockPlace_eq_some {l : Slc} {k : Kind} {w : Window} (h : l.blockPlace k = some w) :
    l.inPlace = some w ∧ w.frame.body.kind = k ∧ l.sendingReply = false := by
  unfold Slc.blockPlace at h
  split at h
  next v hv =>
    split at h
    next hc =>
      obtain rfl := Option.some.inj h
      simpa [hv] using hc
    next => cases h
  next => cases h

theorem sendInv_blockPassed {s : State} (h : SendInv s) : SendInv (blockPassed s) := h.setSlc (Slc.passOver_sameLine _ _)

theorem sendInv_contestByte {s : State} (h : SendInv s) (v : Byte) : SendInv (contestByte v s) := by
  unfold contestByte
  split
  · exact (h.setSlc (Slc.takeBlock_sameLine _ _)).congr (sameSending_deliverLife _ _)
  · exact sendInv_blockPassed h

theorem sendInv_musterNext {s : State} (h : SendInv s) (htx : s.slc.tx = none) : SendInv (musterNext s) := by
  unfold musterNext
  split
  next a w hw _ hin =>
    obtain ⟨hrun, hlink⟩ := h.waiting hw
    obtain ⟨-, hp, -⟩ := Slc.inPlace_eq_some hin
    exact h.startedReply hrun hlink hp (x := .muster (addrByte a)) (by simp) rfl rfl rfl rfl rfl rfl
  · exact sendInv_release h (h.releasedIdle htx) rfl fun hw => absurd hw (Slc.musterDone_not_waiting _)
  · exact h

theorem sendInv_musterByte {s : State} (h : SendInv s) (v : Byte) : SendInv (musterByte v s) := by
  unfold musterByte
  split
  next w hw =>
    obtain ⟨hin, -, hr⟩ := Slc.blockPlace_eq_some hw
    obtain ⟨-, hp, -⟩ := Slc.inPlace_eq_some hin
    have hsame := sameSending_deliverLife v (s.setSlc (s.slc.takeBlock (w.countMuster v)))
    exact sendInv_musterNext ((h.setSlc (Slc.takeBlock_sameLine _ _)).congr hsame)
      (hsame.line.tx.trans (h.lineInv.tx_none_window hr hp))
  next => exact sendInv_blockPassed h

theorem sendInv_answerReceived {s : State} (h : SendInv s) (block : List Byte) : SendInv (answerReceived block s) := by
  unfold answerReceived
  split
  next w hw =>
    obtain ⟨hin, -⟩ := Slc.blockPlace_eq_some hw
    obtain ⟨-, hp, -⟩ := Slc.inPlace_eq_some hin
    split
    · exact h
    · split
      · exact sendInv_replyError h hp _ _
      · exact h.setSlc (Slc.takeBlock_sameLine _ _)
  next => exact sendInv_blockPassed h

theorem sendInv_fixtureStatusByte {s : State} (h : SendInv s) : SendInv (fixtureStatusByte s) := by
  unfold fixtureStatusByte
  split
  · exact h.setSlc (Slc.takeBlock_sameLine _ _)
  · exact sendInv_blockPassed h

/-- A block is found in error in an open window alone. -/
theorem Slc.errorPlace_phase {l : Slc} {e : ReplyError} {w : Window} (h : l.errorPlace e = some w) : l.phase = .window := by
  unfold Slc.errorPlace at h
  split at h
  · split at h
    · cases h
    · split at h
      · obtain ⟨-, hp, -⟩ := Slc.inPlace_eq_some h
        exact hp
      · split at h
        next hc => simp_all [Slc.ownJustEnded]
        next => cases h
  · cases h

theorem sendInv_replyBlockError {s : State} (h : SendInv s) (e : ReplyError) : SendInv (replyBlockError e s) := by
  unfold replyBlockError
  split
  next w hw => exact sendInv_replyError h (Slc.errorPlace_phase hw) _ _
  next => exact h.setSlc (Slc.passOver_sameLine _ _)

theorem sendInv_replyDone {s : State} (h : SendInv s) (htx : s.slc.tx = none) (x : Sending) : SendInv (replyDone x s) := by
  cases x with
  | muster v => exact sendInv_release h (h.releasedIdle htx) rfl fun hw => absurd hw (Slc.musterDone_not_waiting _)
  | answer block clears =>
    cases clears with
    | none => exact h
    | some captured => exact h.congr ⟨.refl _, rfl, rfl, rfl, rfl⟩
  | contest v => exact h.congr ⟨.refl _, rfl, rfl, rfl, rfl⟩
  | _ => exact h

theorem sendInv_ownReply {s : State} (h : SendInv s) : SendInv (ownReply s) := by
  unfold ownReply
  split
  · split
    · refine sendInv_replyDone ?_ rfl _
      exact sendInv_release h ⟨rfl, rfl, rfl⟩ rfl id
    · exact h
  · exact h

/-! ### EOF and the stuck line -/

theorem staysSilent_judgeOwnStake (tgt : Addr) (contested : Bool) (s : State) :
    StaysSilent s (judgeOwnStake tgt contested s) :=
  staysSilent_ite (staysSilent_ite (staysSilent_giveUp _ s) (staysSilent_takeAddress _ s))
    (staysSilent_ite (staysSilent_ite (staysSilent_yieldAddress _ s) (staysSilent_of_same rfl rfl)) (.refl s))

theorem staysSilent_judgeOtherStake (tgt : Addr) (contested : Bool) (s : State) :
    StaysSilent s (judgeOtherStake tgt contested s) :=
  staysSilent_ite (staysSilent_resumeChoice s)
    (staysSilent_ite (staysSilent_giveUp _ s) (staysSilent_ite (staysSilent_yieldAddress _ s) (.refl s)))

theorem staysSilent_emptySlot (tgt : Addr) (s : State) : StaysSilent s (emptySlot tgt s) :=
  staysSilent_ite (.refl s) ((staysSilent_actOnSlot _ _ s).trans (staysSilent_slotEmptied _))

theorem staysSilent_judgeStake (w : Window) (s : State) : StaysSilent s (judgeStake w s) := by
  unfold judgeStake
  split
  · exact staysSilent_ite (staysSilent_judgeOwnStake _ _ s)
      (staysSilent_ite (staysSilent_judgeOtherStake _ _ s)
        ((staysSilent_judgeOtherStake _ _ s).trans (staysSilent_emptySlot _ _)))
  · exact .refl s

theorem staysSilent_finishAsk (w : Window) (s : State) : StaysSilent s (finishAsk w s) := by
  unfold finishAsk askOutcome
  split
  · exact StaysSilent.trans (t := s.setPtab { s.ptab with awaited := false }) (staysSilent_of_same rfl rfl)
      (staysSilent_actOnSlot _ _ _)
  · exact .refl s

theorem staysSilent_musterStep (w : Window) (start : Byte) (s : State) : StaysSilent s (musterStep w start s) := by
  unfold musterStep
  split
  · split
    · exact staysSilent_of_sameLine ⟨rfl, rfl, rfl, rfl, rfl⟩ id
    · exact staysSilent_of_sameLine ⟨rfl, rfl, rfl, rfl, rfl⟩ id
  · exact .refl s

theorem staysSilent_finishWindow (w : Window) (s : State) : StaysSilent s (finishWindow w s) := by
  unfold finishWindow
  split
  · exact staysSilent_judgeStake w s
  · exact staysSilent_ite (staysSilent_finishAsk w s) (.refl s)
  · exact staysSilent_ite (staysSilent_musterStep w _ s) (.refl s)
  · exact .refl s
  · exact .refl s

/-- Whatever the window decides, nothing is sent from EOF on (R68). -/
theorem sendInv_closeFrame {s : State} (hidle : s.slc.ReleasedIdle) (hload : s.sid.st = .load ↔ s.csto.loaded = none)
    (hb : s.fc.busStuck = false) (w : Window) : SendInv (closeFrame w s) := by
  unfold closeFrame
  dsimp only
  refine SendInv.congr ?_ (sameSending_settle _)
  generalize hy : (if s.csto.loaded.isSome then finishWindow w s else s) = y
  have hframe : y.fc = s.fc ∧ y.csto = s.csto := by
    rw [← hy]
    split
    · simp
    · exact ⟨rfl, rfl⟩
  have hstays : StaysSilent s y := by
    rw [← hy]
    exact staysSilent_ite (staysSilent_finishWindow w s) (.refl s)
  have hst : y.sid.st = .load ↔ s.csto.loaded = none := by
    cases hl : s.csto.loaded with
    | none =>
      have hsame : y = s := by rw [← hy, hl]; rfl
      rw [hsame, hload, hl]
    | some p => exact iff_of_false (hstays.notLoad fun he => by simp [hload.mp he] at hl) (by simp)
  refine sendInv_of_resting ⟨(hstays.releasedIdle hidle).stopped .stopped, fun hw => nomatch hw⟩ ?_ fun hs => ?_
  · dsimp only [State.setSid_sid, State.setSid_csto, State.setSlc_csto, State.setSlc_sid]
    rw [hst, hframe.2]
  · dsimp only [State.setSid_fc, State.setSlc_fc] at hs
    rw [hframe.1, hb] at hs
    cases hs

theorem sendInv_frameEof {s : State} (h : SendInv s) : SendInv (frameEof s) := by
  unfold frameEof
  split
  · split
    next hp => exact sendInv_closeFrame h.releasedIdle h.load_iff (h.notStuck (by simp [hp])) _
    next => exact h
  · exact h

theorem sendInv_busStuckClear {s : State} (h : SendInv s) : SendInv (busStuckClear s) := by
  unfold busStuckClear
  dsimp only
  split
  next hb =>
    split
    · exact sendInv_closeFrame (s := s.setFc { s.fc with busStuck := false, stuckFor := none }) h.releasedIdle h.load_iff rfl _
    · exact h.silenced (h.releasedIdle (h.lineInv.tx_none_hunt (h.stuck_hunt hb))) id rfl rfl rfl fun hs => nomatch hs
  next => exact h

theorem sendInv_stuckPulse {s : State} (h : SendInv s) (d : Nat) : SendInv (stuckPulse d s) := by
  unfold stuckPulse
  split
  next hp => exact sendInv_malformed h (.inl hp) _
  next hp _ => exact sendInv_replyError h hp _ _
  next => exact h

theorem sendInv_busStuckSet {s : State} (h : SendInv s) (d : Nat) : SendInv (busStuckSet d s) := by
  unfold busStuckSet
  dsimp only
  split
  · have hpulse := sendInv_stuckPulse h d
    exact hpulse.silenced (hpulse.releasedIdle.stopped .stopped)
      (fun hw => ((stuckPulse d s).slc.stopped_phase .stopped).2 ▸ hw) rfl rfl rfl fun _ => rfl
  · exact h

/-! ### Ticks, aged slots and the end of loading -/

theorem sendInv_removeSlots {s : State} (h : SendInv s) (waits : Bool) (p : Params) : SendInv (removeSlots waits p s) := by
  obtain ⟨-, hsid, -, hslc, -⟩ := slotsRemoved_keeps p s
  have hfc : (slotsRemoved p s).fc = s.fc := (slotsRemoved_keeps p s).1
  have hcsto : (slotsRemoved p s).csto = s.csto := by
    unfold slotsRemoved
    split
    · rfl
    · simp
  have hremoved : SendInv (slotsRemoved p s) := by
    refine h.congr ⟨?_, by rw [hsid], by rw [hfc], by rw [hfc], by rw [hcsto]⟩
    rw [hslc]
    exact ⟨rfl, rfl, rfl, rfl, rfl⟩
  rcases removeSlots_cases waits p s with he | ⟨hst, he | he⟩
  · rw [he]; exact hremoved
  · rw [he]
    have hst' : (slotsRemoved p s).sid.st = .unaddressed := by rw [hsid, hst]
    obtain ⟨htx, hw⟩ := hremoved.idle (by simp [hst']) (by simp [hst'])
    exact hremoved.rested htx hw (by simp [hst']) (staysSilent_claimFromSeed _) (by simp) (by simp)
  · rw [he]
    exact hremoved.congr ⟨.refl _, by rw [hsid]; rfl, rfl, rfl, rfl⟩

theorem sendInv_tickPeers {s : State} (h : SendInv s) (waits : Bool) : SendInv (tickPeers waits s) := by
  unfold tickPeers
  split
  next p _ =>
    have haged : SendInv (agePeers p s) := h.congr ⟨.refl _, rfl, rfl, rfl, rfl⟩
    exact (sendInv_removeSlots haged waits p).congr ⟨.refl _, rfl, rfl, rfl, rfl⟩
  next => exact h

theorem sendInv_tick {s : State} (h : SendInv s) : SendInv (tick s) := by
  obtain ⟨f, w, n, he⟩ := tick_eq s
  rw [he]
  have hpeers := sendInv_tickPeers h w
  refine hpeers.congr ⟨?_, by simp [tickIn, Sid.tick], by simp, by simp, by simp⟩
  simp only [tickIn, State.setFreeReads_slc, State.setSid_slc, State.setSlc_slc, tickSseq_frame, tickEngine_frame]
  exact ⟨rfl, rfl, rfl, rfl, rfl⟩

theorem sendInv_fsyncEdge {s : State} (h : SendInv s) (t : Nat) : SendInv (fsyncEdge t s) := by
  unfold fsyncEdge
  split
  · exact SendInv.settle (sendInv_tick (SendInv.congr h ⟨.refl _, rfl, rfl, rfl, rfl⟩))
  · exact h

theorem sendInv_substituteTick {s : State} (h : SendInv s) : SendInv (substituteTick s) := by
  unfold substituteTick
  split
  · exact h
  · exact SendInv.settle (sendInv_tick (SendInv.congr h ⟨.refl _, rfl, rfl, rfl, rfl⟩))

theorem sendInv_slotRemoval {s : State} (h : SendInv s) : SendInv (slotRemoval s) := by
  unfold slotRemoval
  split
  · exact sendInv_removeSlots h _ _
  · exact h

theorem sendInv_listenEnd {s : State} (h : SendInv s) : SendInv (listenEnd s) := by
  unfold listenEnd
  split
  · split
    next hgo =>
      have hst : s.sid.st = .listen := by simp_all
      obtain ⟨htx, hw⟩ := h.idle (by simp [hst]) (by simp [hst])
      exact h.rested htx hw (by simp [hst]) (staysSilent_claimFromSeed s) (by simp) (by simp)
    next => exact h
  · exact h

/-- In LOAD nothing is sent, and LISTEN is entered with nothing sent (R91). -/
theorem sendInv_endOfLoading {s : State} (h : SendInv s) (hn : s.csto.loaded = none) (p : Params) :
    SendInv (endOfLoading p s) := by
  have hst : s.sid.st = .load := h.load_iff.mpr hn
  obtain ⟨htx, hw⟩ := h.idle (by simp [hst]) (by simp [hst])
  have hslc : (loadingTaken p s).slc = { s.slc with ask := (loadingTaken p s).slc.ask } := by
    simp only [loadingTaken, eventsStart_frame, gainsStart_frame, listenStart]
    rw [changeIdentity_slc _ (by simp [hst])]
    rfl
  rw [endOfLoading_eq]
  refine SendInv.congr (sendInv_of_resting ?_ ?_ fun hb => ?_) (sameSending_settle _)
  · rw [hslc]
    exact ⟨h.releasedIdle htx, hw⟩
  · rw [loadingTaken_sid]
    simp [loadingTaken]
  · rw [hslc]
    refine h.stuck_hunt ?_
    simpa [loadingTaken] using hb

/-! ### Every command -/

theorem sameSending_temperatureRead (o : Option Int) (s : State) : SameSending s (temperatureRead o s) := by
  unfold temperatureRead
  split
  · refine SameSending.trans ?_ (sameSending_settle _)
    exact ⟨by simp [Slc.SameLine.refl], by simp, by simp, by simp, by simp⟩
  · exact .refl s

theorem sameSending_windowClose (s : State) : SameSending s (windowClose s) := by
  unfold windowClose
  dsimp only
  split
  · exact ⟨.refl _, rfl, rfl, rfl, rfl⟩
  · exact ⟨.refl _, rfl, rfl, rfl, rfl⟩
  · exact SameSending.settle ⟨.refl _, rfl, rfl, rfl, rfl⟩
  · exact SameSending.settle ⟨.refl _, rfl, rfl, rfl, rfl⟩

theorem sameSending_countArrival (o : Option (BitVec 16)) (s : State) : SameSending s (countArrival o s) := by
  unfold countArrival
  split
  · refine SameSending.trans ?_ (sameSending_settle _)
    exact ⟨by simp [Slc.SameLine.refl], by simp, by simp, by simp, by simp⟩
  · exact .refl s

theorem sameSending_settleTimeout (s : State) : SameSending s (settleTimeout s) := by
  unfold settleTimeout
  split
  · split
    · exact SameSending.settle ⟨.refl _, rfl, rfl, rfl, rfl⟩
    · exact .refl s
  · exact .refl s

theorem sameSending_slotStale (s : State) : SameSending s (slotStale s) := by
  unfold slotStale
  split
  · exact SameSending.settle ⟨.refl _, rfl, rfl, rfl, rfl⟩
  · exact .refl s

theorem wantNotice_sameLine (l : Slc) : l.SameLine l.wantNotice := by
  unfold Slc.wantNotice
  split
  · exact .refl l
  · split
    · exact ⟨rfl, rfl, rfl, rfl, rfl⟩
    · exact ⟨rfl, rfl, rfl, rfl, rfl⟩

theorem Fc.silence_busStuck (f : Fc) : f.silence.busStuck = f.busStuck := by
  unfold Fc.silence
  split
  · rfl
  · rfl

theorem Fc.detachCheck_busStuck (f : Fc) (t onTime : Nat) : (f.detachCheck t onTime).busStuck = f.busStuck := by
  dsimp only [Fc.detachCheck, Fc.detach]
  repeat' split
  all_goals rfl

theorem Fc.recover_busStuck (f : Fc) (conducting : Bool) : (f.recover conducting).busStuck = f.busStuck := by
  dsimp only [Fc.recover]
  split
  · split
    · exact Fc.detachCheck_busStuck _ _ _
    · rfl
  · rfl

theorem sendInv_ite {c : Prop} [Decidable c] {a b : State} (ha : c → SendInv a) (hb : SendInv b) :
    SendInv (if c then a else b) := by
  split
  next hc => exact ha hc
  next => exact hb

theorem sendInv_exec {c : Instr} {s t : State} (hs : SendInv s) (h : exec c s = .next t) : SendInv t := by
  cases c with
  | reset =>
    refine Host.Outcome.next.inj h ▸ sendInv_of_resting (t := resetState s) ⟨⟨rfl, rfl, rfl⟩, fun hw => nomatch hw⟩
      (iff_of_true rfl rfl) fun hb => nomatch hb
  | resetRelease m fxs =>
    obtain rfl := Host.Outcome.next.inj h
    exact sendInv_ite (fun _ => hs.congr ⟨.refl _, rfl, rfl, rfl, rfl⟩) hs
  | endOfLoading =>
    exact whenLive_next h hs (sendInv_ite (fun hn => sendInv_endOfLoading hs (by simpa using hn) _) hs)
  | fsyncEdge m => exact whenLive_next h hs (sendInv_fsyncEdge hs m)
  | substituteTick => exact whenLive_next h hs (sendInv_substituteTick hs)
  | pollTimerExpiry =>
    refine whenLive_next h hs ?_
    split
    · exact hs
    · exact hs.congr ⟨.refl _, rfl, rfl, rfl, rfl⟩
  | temperatureReadCompletion o => exact whenLive_next h hs (hs.congr (sameSending_temperatureRead o s))
  | senseWindowOpen => exact whenLive_next h hs (hs.congr ⟨by simp [Slc.SameLine.refl], by simp, by simp, by simp, by simp⟩)
  | senseWindowClose => exact whenLive_next h hs (hs.congr (sameSending_windowClose s))
  | countArrival o => exact whenLive_next h hs (hs.congr (sameSending_countArrival o s))
  | intervalTimerExpiry =>
    exact whenLive_next h hs (hs.congr ⟨by simp [Slc.SameLine.refl], by simp, by simp, by simp, by simp⟩)
  | settleTimeout => exact whenLive_next h hs (hs.congr (sameSending_settleTimeout s))
  | receiverReady =>
    refine whenLive_next h hs (sendInv_ite (fun hgo => ?_) hs)
    simp only [Bool.and_eq_true, decide_eq_true_eq, Bool.not_eq_true'] at hgo
    obtain ⟨hp, hb⟩ := hgo
    exact hs.silenced (hs.releasedIdle (hs.lineInv.tx_none_hunt hp)) id rfl rfl rfl fun hb' =>
      absurd (hb.symm.trans hb') (by simp)
  | transmitStart sof => exact whenLive_next h hs (sendInv_transmitStart hs sof)
  | arbitrationLoss pos pulse =>
    refine whenLive_next h hs (sendInv_ite (fun hgo => ?_) hs)
    obtain ⟨hsilent, hp, hw⟩ := Slc.lose_ends (l := s.slc.takeOwnBits pos pulse) (Slc.readBack_sending hgo)
    exact sendInv_release hs hsilent hp fun hwait => hw ▸ hwait
  | bitError pos pulse =>
    refine whenLive_next h hs (sendInv_ite (fun _ => sendInv_confine rfl ?_) hs)
    obtain ⟨hsilent, hp, hw⟩ := (s.slc.takeOwnBits pos pulse).stopOnError_ends
    exact sendInv_release hs hsilent hp hw
  | sendSymbolError pos pulse =>
    refine whenLive_next h hs (sendInv_ite (fun _ => ?_) hs)
    obtain ⟨hsilent, hp, hw⟩ := (s.slc.takeOwnBits pos pulse).stopOnError_ends
    exact sendInv_release hs hsilent hp hw
  | malformedFrame f =>
    refine whenLive_next h hs (sendInv_ite (fun hgo => ?_) hs)
    simp only [Bool.and_eq_true] at hgo
    exact sendInv_malformed hs (Slc.judges_phase hgo.1) f
  | ownNoticeComplete => exact whenLive_next h hs (sendInv_ownComplete hs _ sameSending_noticeDone)
  | ownAskComplete => exact whenLive_next h hs (sendInv_ownComplete hs _ fun _ x => ⟨.refl _, rfl, rfl, rfl, rfl⟩)
  | ownStakeComplete | ownMusterComplete => exact whenLive_next h hs (sendInv_ownComplete hs _ fun _ x => .refl x)
  | noticeReceived => exact whenLive_next h hs (sendInv_frameReceived hs _ keepsSending_settle)
  | musterReceived => exact whenLive_next h hs (sendInv_frameReceived hs _ (keepsSending_musterReplyStart _))
  | stakeReceived => exact whenLive_next h hs (sendInv_frameReceived hs _ (keepsSending_stakeAtEob _ _ _))
  | capability | status | statusClear | identity | gains | targets | storeState | page | unknownSelector =>
    exact whenLive_next h hs (sendInv_frameReceived hs _ (keepsSending_askAtEob _ _))
  | arm | disarm | burn | lock | unknownCommand =>
    exact whenLive_next h hs (sendInv_frameReceived hs _ (keepsSending_fixtureAtEob _ _ _))
  | contestByteReceived v => exact whenLive_next h hs (sendInv_contestByte hs v)
  | musterByteReceived v => exact whenLive_next h hs (sendInv_musterByte hs v)
  | answerBlockReceived block => exact whenLive_next h hs (sendInv_answerReceived hs block)
  | fixtureStatusByteReceived => exact whenLive_next h hs (sendInv_fixtureStatusByte hs)
  | replyBlockError e => exact whenLive_next h hs (sendInv_replyBlockError hs e)
  | ownReplyComplete => exact whenLive_next h hs (sendInv_ownReply hs)
  | frameEof => exact whenLive_next h hs (sendInv_frameEof hs)
  | reportTimerDue => exact whenLive_next h hs (sendInv_ite (fun _ => hs.setSlc (wantNotice_sameLine _)) hs)
  | spacingCountFull => exact whenLive_next h hs (sendInv_ite (fun _ => hs.setSlc ⟨rfl, rfl, rfl, rfl, rfl⟩) hs)
  | listenEnd => exact whenLive_next h hs (sendInv_listenEnd hs)
  | slotStale => exact whenLive_next h hs (hs.congr (sameSending_slotStale s))
  | slotRemoval => exact whenLive_next h hs (sendInv_slotRemoval hs)
  | driverTransferComplete => exact whenLive_next h hs (hs.congr ⟨.refl _, rfl, rfl, rfl, rfl⟩)
  | silenceExpiry => exact whenLive_next h hs (sendInv_confine (Fc.silence_busStuck _) hs)
  | detach m onTime => exact whenLive_next h hs (sendInv_confine (Fc.detachCheck_busStuck _ _ _) hs)
  | detachRecovery conducting => exact whenLive_next h hs (sendInv_confine (Fc.recover_busStuck _ _) hs)
  | detachHistoryClear =>
    refine whenLive_next h hs (hs.congr ⟨.refl _, rfl, ?_, ?_, rfl⟩)
    · unfold Fc.clearHistory
      split
      · rfl
      · rfl
    · unfold Fc.clearHistory
      split
      · rfl
      · rfl
  | busStuckSet d => exact whenLive_next h hs (sendInv_busStuckSet hs d)
  | busStuckClear => exact whenLive_next h hs (sendInv_busStuckClear hs)
  | burnByteComplete missed => exact whenLive_next h hs (hs.congr ⟨.refl _, rfl, rfl, rfl, by simp⟩)
  | lockComplete => exact whenLive_next h hs (hs.congr ⟨.refl _, rfl, rfl, rfl, by simp⟩)
  | startOfFrame m pulse => exact whenLive_next h hs (sendInv_startOfFrame hs m pulse)

/-- Settles O49: line time goes on with what is being sent, and each command ends a sending, starts one that R71 allows, or leaves
it. -/
theorem sendInvariantKept : Obligations.SendInvariantKept := by
  unfold Obligations.SendInvariantKept
  intro s t hs h
  rcases step_cases h with rfl | rfl | ⟨c, rest, h⟩
  · exact hs
  · exact sendInv_partPasses hs
  · exact sendInv_exec (s := s.setPending rest) (hs.congr ⟨.refl _, rfl, rfl, rfl, rfl⟩) h

end Sys2Proof.Machine
end

section
/-! SUPPORT. The receiver's part of a command: pulses, and the bytes of a main part: O18. -/

namespace Sys2Proof.Machine

/-! ### What a command leaves -/

theorem onlyChanges_setSlc (s : State) (l : Slc) : OnlyChanges [.slc] s (s.setSlc l) := fun b hb => by
  cases b <;> simp_all [SameBlock]

theorem OnlyChanges.mono {bs cs : List Block} {s u : State} (h : OnlyChanges bs s u) (hsub : bs ⊆ cs) : OnlyChanges cs s u :=
  fun b hb => h b fun hm => hb (hsub hm)

theorem OnlyChanges.trans {bs : List Block} {s t u : State} (h : OnlyChanges bs s t) (k : OnlyChanges bs t u) :
    OnlyChanges bs s u := fun b hb => by
  have hst := h b hb
  have htu := k b hb
  cases b <;> exact htu.trans hst

/-- A change of fault confinement's state, with its hand-off, stays within five blocks. -/
theorem confine_onlyChanges (f : Fc → Fc) (s : State) : OnlyChanges [.slc, .fc, .sid, .ptab, .evu] s (confine f s) :=
  fun b hb => by cases b <;> simp_all [SameBlock]

/-! ### Pulses (R51) -/

theorem pulseClass_eq_one {ns : Nat} : pulseClass ns = .one ↔ 500 ≤ ns ∧ ns ≤ 1500 := by grind [pulseClass]

theorem pulseClass_eq_zero {ns : Nat} : pulseClass ns = .zero ↔ 2500 ≤ ns ∧ ns ≤ 3500 := by grind [pulseClass]

theorem pulseClass_eq_sof {ns : Nat} : pulseClass ns = .sof ↔ 9000 ≤ ns ∧ ns ≤ 11000 := by grind [pulseClass]

theorem isBitPulse_iff {ns : Nat} : isBitPulse ns = true ↔ 500 ≤ ns ∧ ns ≤ 1500 ∨ 2500 ≤ ns ∧ ns ≤ 3500 := by
  simp [isBitPulse, pulseClass_eq_one, pulseClass_eq_zero]

/-! ### The CRC-8 (R58) -/

/-- One shift of the register undone: its low bit tells whether the polynomial was added, which has that bit set. -/
def crc8Unshift (x : Byte) : Byte := if x.getLsbD 0 then ((x ^^^ 0x07) >>> 1) ||| 0x80 else x >>> 1

theorem crc8Unshift_shift : ∀ r : Byte, crc8Unshift (if r.msb then (r <<< 1) ^^^ 0x07 else r <<< 1) = r := by
  decide +kernel

theorem crc8Shift_injective (n : Nat) {r r' : Byte} (h : crc8Shift n r = crc8Shift n r') : r = r' := by
  induction n generalizing r r' with
  | zero => exact h
  | succ n ih => rw [← crc8Unshift_shift r, ← crc8Unshift_shift r', ih h]

theorem crc8Byte_left_injective {r r' b : Byte} (h : crc8Byte r b = crc8Byte r' b) : r = r' :=
  BitVec.xor_right_inj b |>.mp (by simpa [BitVec.xor_comm] using crc8Shift_injective 8 h)

theorem crc8Byte_right_injective {r b b' : Byte} (h : crc8Byte r b = crc8Byte r b') : b = b' :=
  (BitVec.xor_right_inj r).mp (crc8Shift_injective 8 h)

/-- Equal bytes carry a difference of two registers to the end. -/
theorem foldl_crc8Byte_injective (bytes : List Byte) {r r' : Byte} (h : bytes.foldl crc8Byte r = bytes.foldl crc8Byte r') :
    r = r' := by
  induction bytes generalizing r r' with
  | nil => exact h
  | cons b rest ih => exact crc8Byte_left_injective (ih h)

theorem crc8_ne_of_byte_ne (before after : List Byte) {x y : Byte} (h : x ≠ y) :
    crc8 (before ++ x :: after) ≠ crc8 (before ++ y :: after) := fun he => by
  simp only [crc8, List.foldl_append, List.foldl_cons] at he
  exact h (crc8Byte_right_injective (foldl_crc8Byte_injective after he))

theorem crc8_set_ne {bytes : List Byte} {k : Nat} {y : Byte} (hk : k < bytes.length) (h : bytes[k]? ≠ some y) :
    crc8 (bytes.set k y) ≠ crc8 bytes := by
  have hx : y ≠ bytes[k] := fun e => h (by simp [e, hk])
  have hset : bytes.set k y = bytes.take k ++ y :: bytes.drop (k + 1) := List.set_eq_take_append_cons_drop.trans (if_pos hk)
  have hsame : bytes = bytes.take k ++ bytes[k] :: bytes.drop (k + 1) := by simp
  rw [hset]
  conv_rhs => rw [hsame]
  exact crc8_ne_of_byte_ne _ _ hx

/-! ### The receiver's judgement of a main part's bytes (R57, R59) -/

/-- Bytes of the length that their header gives: the register holds the CRC-8 of all but the last. -/
theorem Reception.ofBits_whole {h last : Byte} {rest : List Byte} (he : expectedOf h = some (rest.length + 2)) :
    Reception.ofBits (lineBits (h :: rest ++ [last])) =
      { bytes := h :: rest ++ [last], shift := 0, bitPos := 0, crc := crc8 (h :: rest), expected := some (rest.length + 2) } := by
  have hrest : (h :: rest).foldl Reception.byte .fresh =
      { bytes := h :: rest, shift := 0, bitPos := 0, crc := crc8 (h :: rest), expected := some (rest.length + 2) } := by
    rw [List.foldl_cons, Reception.byte_fresh, he, Reception.foldl_covered _ _ rfl rfl (by simp) (by simp; omega)]
    simp [crc8]
  rw [Reception.ofBits_lineBits, List.foldl_append, hrest]
  simp [Reception.byte]

/-- A valid main part ends with the register's value. -/
theorem Reception.valid_crc {r : Reception} (h : r.valid = true) (hb : r.bytes ≠ []) : r.bytes.getLast? = some r.crc := by
  simp only [Reception.valid, Reception.testsPass, Bool.and_eq_true] at h
  obtain ⟨hc, ht⟩ := h
  split at ht
  · simp only [hc, Bool.and_eq_true, Bool.not_true, Bool.false_or, decide_eq_true_eq] at ht
    exact ht.2
  next hnil => exact absurd hnil hb
  · cases ht

theorem Reception.ofBits_whole_valid {h last : Byte} {rest : List Byte} (he : expectedOf h = some (rest.length + 2))
    (hv : (Reception.ofBits (lineBits (h :: rest ++ [last]))).valid = true) : last = crc8 (h :: rest) := by
  have hlast := Reception.valid_crc hv
  rw [Reception.ofBits_whole he, List.getLast?_concat] at hlast
  exact Option.some.inj (hlast (by simp))

/-- Settles O18: the shifts and the sums of the register can be undone, so a difference in one byte stays. -/
theorem crcSeesEveryChangedByte : Obligations.CrcSeesEveryChangedByte := by
  unfold Obligations.CrcSeesEveryChangedByte
  refine ⟨fun before after x y h => crc8_ne_of_byte_ne before after h, fun f k y hf hpos hk hy => ?_⟩
  rw [Bool.eq_false_iff]
  intro hv
  have hlen : f.body.kind.lengthOk f.body.payload.length = true := by
    simp only [Frame.malformed, Bool.not_eq_false', Bool.and_eq_true] at hf
    obtain ⟨⟨hlen, -⟩, -⟩ := hf
    exact hlen
  obtain ⟨-, -, hexp⟩ := Body.header_ok hlen
  have hexpected (rest : List Byte) (hr : rest.length = f.body.payload.length + 2) :
      expectedOf f.body.header = some (rest.length + 2) := by rw [hexp, hr]; simp; omega
  obtain ⟨k, rfl⟩ : ∃ j, k = j + 1 := ⟨k - 1, by omega⟩
  have hbytes : f.bytes = f.body.header :: (f.src :: f.tgt :: f.body.payload) ++ [crc8 f.covered] := rfl
  generalize hrest : f.src :: f.tgt :: f.body.payload = rest at hbytes
  have hcov : f.covered = f.body.header :: rest := by rw [← hrest]; rfl
  have hl : rest.length = f.body.payload.length + 2 := by simp [← hrest]
  rw [hbytes, List.cons_append] at hk hy hv
  simp only [List.length_cons, List.length_append, List.length_nil, List.set_cons_succ, List.getElem?_cons_succ] at hk hy hv
  by_cases hlast : k = rest.length
  · subst hlast
    simp only [List.set_append_right _ _ le_rfl, Nat.sub_self, List.set_cons_zero] at hv
    refine hy ?_
    rw [Reception.ofBits_whole_valid (hexpected rest hl) hv, hcov]
    simp
  · have hk' : k < rest.length := by omega
    rw [List.set_append_left _ _ hk'] at hv
    rw [List.getElem?_append_left hk'] at hy
    have hcrc := Reception.ofBits_whole_valid (hexpected (rest.set k y) (by simpa using hl)) hv
    rw [hcov] at hcrc
    exact crc8_set_ne (bytes := f.body.header :: rest) (k := k + 1) (by simpa using hk') (by simpa using hy) hcrc.symm

end Sys2Proof.Machine
end

section
/-! SUPPORT. Line time, a frame's start, and a lost contest: O1, O20, O21. -/

namespace Sys2Proof.Machine

/-! ### A step -/

theorem step_of_pending {s : State} {c : Instr} {rest : List Instr} (h : s.pending = c :: rest) :
    step s = exec c (s.setPending rest) := by simp [step, h]

theorem step_of_idle {s : State} (h : s.pending = []) : step s = lineTime s := by simp [step, h]

theorem Sent.bit?_bitSymbol (b : Bool) : (bitSymbol b).bit? = some b := by cases b <;> rfl

theorem Slc.partPasses_driving {l : Slc} {x : Sending} (hx : l.tx = some x) (h : l.driver = .driving) :
    l.partPasses = l.dominantEnds x := by simp [Slc.partPasses, hx, h]

theorem Slc.partPasses_released {l : Slc} {x : Sending} (hx : l.tx = some x) (h : l.driver = .released) :
    l.partPasses = l.recessiveEnds x := by simp [Slc.partPasses, hx, h]

theorem Slc.partPasses_silent {l : Slc} (h : l.tx = none) : l.partPasses = l := by simp [Slc.partPasses, h]

theorem Slc.dominantEnds_main {l : Slc} {f : Frame} {b : Bool} {r : Reception} (hx : l.tx = some (.main f)) (hp : l.phase = .main)
    (hb : (Sending.main f).symbols[l.txPos]? = some (bitSymbol b)) (hr : l.rx = some r) :
    (l.dominantEnds (.main f)).rx = some (r.bit b) := by
  simp [Slc.dominantEnds, Slc.sendingMain, hx, hp, hb, hr, Sent.bit?_bitSymbol]

theorem Slc.dominantEnds_reply {l : Slc} {x : Sending} (hx : l.tx = some x) (h : ∀ f, x ≠ .main f) :
    (l.dominantEnds x).rx = l.rx := by
  have hm : l.sendingMain = false := by
    unfold Slc.sendingMain
    split
    next f hf => exact absurd (Option.some.inj (hx.symm.trans hf)) (h f)
    next => rfl
  simp [Slc.dominantEnds, hm]

/-- Settles O1: the queue's front command runs on the rest, and with none waiting line time passes. -/
theorem stepRunsTheFrontCommand : Obligations.StepRunsTheFrontCommand := by
  unfold Obligations.StepRunsTheFrontCommand
  refine ⟨fun c rest s h => step_of_pending h, fun s h => ⟨?silent, fun x hlive hx => ?sending⟩⟩
  case silent =>
    rw [step_of_idle h]
    rintro (hheld | htx)
    · exact whenLive_of_held hheld
    · rw [lineTime, Slc.partPasses_silent htx, State.setSlc_self]
      unfold whenLive
      split <;> rfl
  case sending =>
    rw [step_of_idle h]
    refine ⟨_, whenLive_of_live hlive, fun hd => ⟨(s.slc.dominantEnds x).rx, ?_, ?_, ?_⟩, fun hr => ?_, onlyChanges_setSlc _ _⟩
    · rw [State.setSlc_slc, Slc.partPasses_driving hx hd]
      rfl
    · rintro f b r rfl hp hb hr
      exact Slc.dominantEnds_main hx hp hb hr
    · exact Slc.dominantEnds_reply hx
    · rw [State.setSlc_slc, Slc.partPasses_released hx hr]
      simp [Slc.recessiveEnds]

/-! ### The start of a frame (R71) -/

theorem transmitStart_some {s : State} {sof : SofSent} {f : Frame} (hp : s.slc.phase = .ready) (htx : s.slc.tx = none)
    (hf : s.chosenFrame = some f) :
    transmitStart sof s =
      if 9000 ≤ sof.pulse ∧ sof.pulse ≤ 11000 then (s.setSlc (s.slc.sofSent f)).setFc (s.fc.sof sof.moment)
      else s.setSlc (s.slc.sofFailed f sof.pulse) := by
  simp [transmitStart, hp, htx, hf, pulseClass_eq_sof]

theorem transmitStart_none {s : State} {sof : SofSent} (hp : s.slc.phase = .ready) (htx : s.slc.tx = none)
    (hf : s.chosenFrame = none) : transmitStart sof s = s.setSlc { s.slc with recessive := 6 } := by
  simp [transmitStart, hp, htx, hf]

theorem transmitStart_tx {s : State} {sof : SofSent} {f : Frame} (hp : s.slc.phase = .ready) (htx : s.slc.tx = none)
    (hf : s.chosenFrame = some f) : (transmitStart sof s).slc.tx = some (.main f) := by
  rw [transmitStart_some hp htx hf]
  split <;> rfl

theorem chosenFrame_run {s : State} (hlink : s.fc.link = .active) (hst : s.sid.st = .run) : s.chosenFrame = s.runFrame := by
  simp [State.chosenFrame, hlink, hst]

theorem chosenFrame_stake {s : State} {x : StakeReq} (hlink : s.fc.link = .active) (hx : s.slc.stake.content = some x)
    (hst : s.sid.st = .run ∨ s.sid.st = .claiming) : s.chosenFrame = some x.frame := by
  rcases hst with hst | hst
  · rw [chosenFrame_run hlink hst, State.runFrame, hx]
  · simp [State.chosenFrame, hlink, hst, hx]

/-- Where link or identity allows no sending, or no allowed slot is pending, no frame is chosen (R71). -/
theorem chosenFrame_none {s : State}
    (h : s.fc.link ≠ .active ∨ s.sid.st = .load ∨ s.sid.st = .listen ∨ s.sid.st = .unaddressed ∨
      s.sid.st = .claiming ∧ s.slc.stake.content = none ∨
      s.sid.st = .run ∧ s.slc.stake.content = none ∧ s.slc.ask.content = none ∧ s.slc.notice.content = none ∧
        s.slc.muster.content = none) : s.chosenFrame = none := by
  unfold State.chosenFrame
  split
  next hlink =>
    rcases h with h | h | h | h | ⟨h, hs⟩ | ⟨h, hs, ha, hn, hm⟩
    · exact absurd hlink h
    · simp [h]
    · simp [h]
    · simp [h]
    · simp [h, hs]
    · simp [h, State.runFrame, hs, ha, hn, hm]
  next => rfl

theorem ownByte_of_own {s : State} {a : Addr} (h : s.sid.own = some a) : s.ownByte = addrByte a := by simp [State.ownByte, h]

theorem noticeFrame_eq {s : State} {a : Addr} {l : Rgb Nat} (ho : s.sid.own = some a) (hl : s.lest.l = some l) :
    s.noticeFrame = ⟨addrByte a, 62, .notice (l.map (BitVec.ofNat 16)) s.lest.ownFlags⟩ := by
  simp [State.noticeFrame, ownByte_of_own ho, Lest.triple, hl]

/-- What starts with a frame, by how its SOF reads back (R52, R60). -/
theorem transmitStart_started {s : State} {sof : SofSent} (hp : s.slc.phase = .ready) (htx : s.slc.tx = none)
    (h : (transmitStart sof s).slc.tx ≠ none) :
    (transmitStart sof s).slc.txPos = 0 ∧ (transmitStart sof s).slc.mark = .asSent ∧
      (if 9000 ≤ sof.pulse ∧ sof.pulse ≤ 11000 then
         (transmitStart sof s).slc.phase = .main ∧ (transmitStart sof s).slc.driver = .released ∧
           (transmitStart sof s).slc.rx = some { bytes := [], shift := 0, bitPos := 0, crc := 0xFF, expected := none } ∧
           (transmitStart sof s).fc = { s.fc with silenceTimer := some (sof.moment + 500000) }
       else (transmitStart sof s).slc.phase = .ready ∧ (transmitStart sof s).slc.rx = s.slc.rx ∧
         (transmitStart sof s).fc = s.fc) := by
  cases hf : s.chosenFrame with
  | none => exact absurd htx (by rw [transmitStart_none hp htx hf] at h; exact h)
  | some f =>
    rw [transmitStart_some hp htx hf]
    split
    · exact ⟨rfl, rfl, rfl, rfl, rfl, rfl⟩
    · exact ⟨rfl, rfl, hp, rfl, rfl⟩

/-- A frame's start fills and empties no slot. -/
theorem transmitStart_slots (sof : SofSent) (s : State) :
    (transmitStart sof s).slc.stake = s.slc.stake ∧ (transmitStart sof s).slc.ask = s.slc.ask ∧
      (transmitStart sof s).slc.notice = s.slc.notice ∧ (transmitStart sof s).slc.muster = s.slc.muster := by
  unfold transmitStart
  split
  · split
    · split <;> exact ⟨rfl, rfl, rfl, rfl⟩
    · exact ⟨rfl, rfl, rfl, rfl⟩
  · exact ⟨rfl, rfl, rfl, rfl⟩

/-- Settles O20: the choice of R71 slot by slot, and what starts with the chosen frame. -/
theorem idleStartsTheLowestKind : Obligations.IdleStartsTheLowestKind := by
  unfold Obligations.IdleStartsTheLowestKind
  intro s sof hlive hp htx
  have hstarts {f : Frame} (hf : s.chosenFrame = some f) := transmitStart_tx (sof := sof) hp htx hf
  obtain ⟨hstake, hask, hnotice, hmuster⟩ := transmitStart_slots sof s
  refine ⟨transmitStart sof s, whenLive_of_live hlive, ?stake, ?ask, ?notice, ?muster, ?nothing,
    transmitStart_started hp htx, hstake, hask, hnotice, hmuster, ?_⟩
  case stake => exact fun x hlink hx hst => hstarts (chosenFrame_stake hlink hx hst)
  case ask =>
    intro x a hlink hst ho hs hx
    refine hstarts ?_
    rw [chosenFrame_run hlink hst, State.runFrame, hs, hx, ownByte_of_own ho]
    rfl
  case notice =>
    intro a l hlink hst ho hl hs ha hn
    refine hstarts ?_
    rw [chosenFrame_run hlink hst, State.runFrame, hs, ha, hn, noticeFrame_eq ho hl]
  case muster =>
    intro a start hlink hst ho hs ha hn hm
    refine hstarts ?_
    rw [chosenFrame_run hlink hst, State.runFrame, hs, ha, hn, hm, ownByte_of_own ho]
    rfl
  case nothing =>
    intro h
    rw [transmitStart_none hp htx (chosenFrame_none h)]
    exact ⟨rfl, rfl⟩
  · intro b hb
    cases b <;> simp_all [SameBlock]

/-! ### The read-back (R60 to R62) -/

theorem Slc.readBack_of_sent {l : Slc} {x : Sending} {sent : Sent} {pos : Nat} (hx : l.tx = some x) (hp : l.phase = x.phaseAt pos)
    (hs : x.symbols[pos]? = some sent) (pulse : Nat) : l.readBack pos pulse = some (Machine.readBack sent pulse) := by
  simp [Slc.readBack, Sending.readBack, hx, hp, hs]

theorem readBack_lost {pulse : Nat} (hlo : 2500 ≤ pulse) (hhi : pulse ≤ 3500) : readBack .one pulse = .lost := by
  grind [readBack, pulseClass]

theorem readBack_short {sent : Sent} {pulse : Nat}
    (h : match sent with
      | .one => pulse < 500
      | .zero => pulse < 2500
      | .sof => pulse < 9000) : readBack sent pulse = .bitError := by
  cases sent <;> grind [readBack, pulseClass]

theorem readBack_long {sent : Sent} {pulse : Nat}
    (h : match sent with
      | .one => 3500 < pulse ∨ 1500 < pulse ∧ pulse < 2500
      | .zero => 3500 < pulse
      | .sof => 11000 < pulse) : readBack sent pulse = .symbolError := by
  cases sent <;> grind [readBack, pulseClass]

/-- The own receiver after a 1 of the main part that the line carried as a 0 (R57, R61). -/
theorem Slc.takeOwnBits_lost_main {l : Slc} {f : Frame} {pos pulse : Nat} (hx : l.tx = some (.main f))
    (hp : l.phase = (Sending.main f).phaseAt pos) (hs : (Sending.main f).symbols[pos]? = some .one) (hlo : 2500 ≤ pulse)
    (hhi : pulse ≤ 3500) :
    (l.takeOwnBits pos pulse).rx = some (.ofBits ((lineBits f.bytes).take (pos - 1) ++ [false])) := by
  cases pos with
  | zero => cases hs
  | succ k =>
    have hz : pulseClass pulse = .zero := pulseClass_eq_zero.mpr ⟨hlo, hhi⟩
    have hm : l.phase = .main := hp
    simp [Slc.takeOwnBits, hx, hm, Sending.bitsBefore_main, pulseBit?, hz]

theorem Slc.release_slots (l : Slc) (m : OwnMark) {x : Sending} (h : ∀ f, x ≠ .main f) :
    SlotEnded .stake x l.stake (l.release m).stake ∧ SlotEnded .ask x l.ask (l.release m).ask ∧
      SlotEnded .notice x l.notice (l.release m).notice ∧ SlotEnded .muster x l.muster (l.release m).muster := by
  cases x with
  | main f => exact absurd rfl (h f)
  | _ => exact ⟨rfl, rfl, rfl, rfl⟩

/-- How a lost contest marks what was sent (R61): a reply to an ASK or a FIXTURE is abandoned. -/
def Sending.lostMark : Sending → OwnMark
  | .status _ | .answer _ _ => .abandoned
  | .main _ | .contest _ | .muster _ => .lost

theorem Slc.takeOwnBits_reply {l : Slc} {x : Sending} (hx : l.tx = some x) (h : ∀ f, x ≠ .main f) (pos pulse : Nat) :
    (l.takeOwnBits pos pulse).rx = l.rx := by
  rw [(l.takeOwnBits_fields pos pulse).2 fun f hf => h f (Option.some.inj (hx.symm.trans hf))]

theorem Slc.lose_fields {l : Slc} {x : Sending} (hx : l.tx = some x) :
    l.lose = { l with
        driver := .released, tx := none, txPos := 0, mark := x.lostMark
        stake := l.lose.stake, ask := l.lose.ask, notice := l.lose.notice, muster := l.lose.muster } ∧
      SlotEnded .stake x l.stake l.lose.stake ∧ SlotEnded .ask x l.ask l.lose.ask ∧
      SlotEnded .notice x l.notice l.lose.notice ∧ SlotEnded .muster x l.muster l.lose.muster := by
  cases x with
  | main f =>
    have h : l.lose = l.stop .lost := by simp [Slc.lose, hx]
    rw [h]
    exact ⟨l.stop_fields .lost, Slc.stop_slots .lost hx⟩
  | contest v | muster v =>
    have h : l.lose = l.release .lost := by simp [Slc.lose, hx]
    rw [h]
    exact ⟨rfl, l.release_slots .lost nofun⟩
  | status v | answer v c =>
    have h : l.lose = l.release .abandoned := by simp [Slc.lose, hx]
    rw [h]
    exact ⟨rfl, l.release_slots .abandoned nofun⟩

/-- Settles O21: the read-back is a loss, and the loss leaves what was sent to its kind. -/
theorem losingStopsWithoutError : Obligations.LosingStopsWithoutError := by
  unfold Obligations.LosingStopsWithoutError
  intro s x pos pulse hlive hx hp hs hlo hhi
  have hlost : s.slc.readBack pos pulse = some .lost := by rw [Slc.readBack_of_sent hx hp hs, readBack_lost hlo hhi]
  obtain ⟨hfields, hslots⟩ := Slc.lose_fields (l := s.slc.takeOwnBits pos pulse) (x := x) hx
  refine ⟨s.setSlc (s.slc.takeOwnBits pos pulse).lose, ?_, ?_, ?_⟩
  · exact (whenLive_of_live hlive).trans (by rw [if_pos hlost])
  · rw [State.setSlc_slc, hfields]
    cases x with
    | main f =>
      rw [Slc.takeOwnBits_lost_main hx hp hs hlo hhi]
      rfl
    | _ =>
      rw [Slc.takeOwnBits_reply hx nofun]
      rfl
  · obtain ⟨hstake, hask, hnotice, hmuster⟩ := hslots
    exact ⟨hstake, hask, hnotice, hmuster, onlyChanges_setSlc _ _⟩

end Sys2Proof.Machine
end

section
/-! SUPPORT. Errors of a frame or reply block, sent or received, at the signalling and at fault confinement:
O19, O22, O23, O34. -/

namespace Sys2Proof.Machine

/-! ### Entries of link state and receive errors -/

theorem conditions_quiet (s : State) : s.conditions.getLsbD 9 = decide (s.fc.link = .quiet) := by
  simp only [State.conditions, BitVec.getLsbD_or, entryIf_getLsbD (show 9 < 16 by decide)]
  simp

theorem conditions_noisy (s : State) : s.conditions.getLsbD 11 = decide (96 ≤ s.fc.recCount) := by
  simp only [State.conditions, BitVec.getLsbD_or, entryIf_getLsbD (show 11 < 16 by decide)]
  simp [Fc.noisy]

theorem linkHandOff_raw (old : LinkState) (s : State) : (linkHandOff old s).evu.raw = (linkHandOff old s).conditions := by
  by_cases h : s.fc.link = old
  · rw [linkHandOff_same h]; exact handEvents_raw _ _
  · rw [linkHandOff_changed h]; exact handEvents_raw _ _

/-! ### A change of link state away from ACTIVE (R74) -/

/-- Outside ACTIVE no waiting choice is made (R93). -/
theorem linkChosen_notActive {s : State} (h : s.fc.link ≠ .active) : linkChosen s = s := by
  unfold linkChosen resumeChoice
  split
  · rfl
  · split
    · rw [if_neg (by simp [h])]
    · rfl

/-- With nothing being sent, the hand-off of a link state other than ACTIVE, or of none, moves the muster reply and the ASK slot
alone, and one that is done stays so. -/
theorem linkHandOff_silent {old : LinkState} {y : State} (htx : y.slc.tx = none) (h : y.fc.link = old ∨ y.fc.link ≠ .active) :
    (linkHandOff old y).slc =
        { y.slc with ask := (linkHandOff old y).slc.ask, musterReply := (linkHandOff old y).slc.musterReply } ∧
      (y.slc.musterReply = .done → (linkHandOff old y).slc.musterReply = .done) ∧
      (y.fc.link = old → (linkHandOff old y).slc = y.slc) := by
  by_cases hs : y.fc.link = old
  · rw [linkHandOff_same hs]
    exact ⟨by simp, by simp, by simp⟩
  · have hlink : (linkTaken old y).fc.link ≠ .active := by rw [(linkTaken_frame old y).1]; exact h.resolve_left hs
    have hcut : y.slc.cutOff = y.slc.musterDone := by simp [Slc.cutOff, htx]
    rw [linkHandOff_changed hs, linkChosen_notActive hlink]
    simp only [handEvents_frame]
    rw [linkTaken, askUpdate_slc, State.setPtab_slc, State.setSlc_slc, hcut]
    split
    · exact ⟨rfl, fun hd => by simp [Slc.musterDone, hd], fun he => absurd he hs⟩
    · exact ⟨rfl, id, fun he => absurd he hs⟩

/-! ### Errors in what the station sends (R62) -/

theorem Slc.musterDone_done {l : Slc} (h : l.musterReply ≠ .notReplying) : l.musterDone.musterReply = .done := by
  simp [Slc.musterDone, h]

/-- What stopping on an error leaves of the signalling. -/
structure Slc.StoppedFor (x : Sending) (l m : Slc) : Prop where
  tx : m.tx = none
  driver : m.driver = .released
  recessive : m.recessive = 0
  mark : m.mark = .stopped
  muster : ∀ v, x = .muster v → l.musterReply ≠ .notReplying → m.musterReply = .done
  stakeSlot : SlotEnded .stake x l.stake m.stake
  askSlot : SlotEnded .ask x l.ask m.ask
  noticeSlot : SlotEnded .notice x l.notice m.notice
  musterSlot : SlotEnded .muster x l.muster m.muster

theorem Slc.stopOnError_stopped {l : Slc} {x : Sending} (hx : l.tx = some x) (pos pulse : Nat) :
    Slc.StoppedFor x l (l.takeOwnBits pos pulse).stopOnError := by
  obtain ⟨hstake, hask, hnotice, hmuster⟩ := Slc.stop_slots (l := l.takeOwnBits pos pulse) .stopped hx
  unfold Slc.stopOnError
  split
  next =>
    refine ⟨rfl, rfl, ?_, rfl, fun v _ hr => Slc.musterDone_done ?_, hstake, hask, hnotice, hmuster⟩
    · exact congrArg Slc.recessive (Slc.stop_fields _ .stopped)
    · rw [Slc.stop_fields]; exact hr
  next hreply =>
    refine ⟨rfl, rfl, ?_, rfl, ?_, hstake, hask, hnotice, hmuster⟩
    · rw [Slc.stop_fields]; rfl
    · rintro v rfl
      exact absurd (by simp [Slc.sendingReply, Slc.takeOwnBits, hx]) hreply

theorem Fc.bitError_fc (f : Fc) :
    f.bitError = { f with
      tec := min 255 (f.tec + 8)
      link := if f.link = .active ∧ 128 ≤ min 255 (f.tec + 8) then .quiet else f.link } := by
  simp [Fc.bitError]

/-- A bit error leaves the link state, or takes it from ACTIVE to QUIET (R149). -/
theorem Fc.bitError_link (f : Fc) : f.bitError.link = f.link ∨ f.bitError.link ≠ .active := by
  rw [Fc.bitError_fc]
  dsimp only
  split
  · exact .inr nofun
  · exact .inl rfl

/-- Settles O22: either error stops the sending alike; a bit error then goes to fault confinement. -/
theorem sendErrorsStopTheStation : Obligations.SendErrorsStopTheStation := by
  unfold Obligations.SendErrorsStopTheStation
  intro s x sent pos pulse hlive hx hp hs
  have hread := Slc.readBack_of_sent hx hp hs pulse
  have hstop := Slc.stopOnError_stopped hx pos pulse
  generalize hl : (s.slc.takeOwnBits pos pulse).stopOnError = l at hstop
  refine ⟨fun hshort => ?short, fun hlong => ?long⟩
  case short =>
    rw [readBack_short hshort] at hread
    obtain ⟨hslc, hdone, hsame⟩ :=
      linkHandOff_silent (old := s.fc.link) (y := (s.setSlc l).setFc s.fc.bitError) hstop.tx s.fc.bitError_link
    have hexec : exec (.bitError pos pulse) s = .next (confine Fc.bitError (s.setSlc l)) :=
      (whenLive_of_live hlive).trans (by rw [if_pos hread, hl])
    have hchanges : OnlyChanges [.slc, .fc, .sid, .ptab, .evu] s (confine Fc.bitError (s.setSlc l)) :=
      ((onlyChanges_setSlc s l).mono (by simp)).trans (confine_onlyChanges _ _)
    have hfc : (confine Fc.bitError (s.setSlc l)).fc = s.fc.bitError := confine_fc _ _
    have hquiet : (confine Fc.bitError (s.setSlc l)).evu.raw.getLsbD 9 =
        decide ((confine Fc.bitError (s.setSlc l)).fc.link = .quiet) := by
      rw [← conditions_quiet]
      exact congrArg (BitVec.getLsbD · 9) (linkHandOff_raw _ _)
    change (confine Fc.bitError (s.setSlc l)).slc = _ at hslc
    refine ⟨_, hexec, ?_, ?_, ?_, fun v hv hr => hdone (hstop.muster v hv hr), hfc.trans (Fc.bitError_fc _), ?_, ?_, ?_,
      fun hlink => ?_, hquiet, hchanges⟩
    · rw [hslc]; exact hstop.tx
    · rw [hslc]; exact hstop.driver
    · rw [hslc]; exact hstop.recessive
    · rw [hslc]; exact hstop.noticeSlot
    · rw [hslc]; exact hstop.musterSlot
    · rw [hslc]; exact hstop.stakeSlot
    · rw [show (confine Fc.bitError (s.setSlc l)).slc = l from hsame (by rw [← hlink, hfc]; rfl)]
      exact hstop.askSlot
  case long =>
    rw [readBack_long hlong] at hread
    refine ⟨s.setSlc l, (whenLive_of_live hlive).trans (by rw [if_pos hread, hl]), ?_⟩
    exact ⟨hstop.tx, hstop.driver, hstop.recessive, hstop.mark, hstop.muster, hstop.noticeSlot, hstop.musterSlot,
      hstop.stakeSlot, hstop.askSlot, onlyChanges_setSlc _ _⟩

/-! ### Errors in what the station receives (R59, R66, R148) -/

/-- A receive error hands on events alone. -/
theorem confine_receiveError (s : State) : confine Fc.receiveError s = handEvents 0 (s.setFc s.fc.receiveError) :=
  linkHandOff_same rfl

/-- One receive error counted, with the signalling as it is left: all that the event moves. -/
theorem receiveError_moves (s : State) (l : Slc) :
    (confine Fc.receiveError (s.setSlc l)).slc = l ∧
      (confine Fc.receiveError (s.setSlc l)).fc = { s.fc with recCount := min 255 (s.fc.recCount + 1) } ∧
      OnlyChanges [.slc, .fc, .evu] s (confine Fc.receiveError (s.setSlc l)) := by
  rw [confine_receiveError]
  exact ⟨by simp, by simp [Fc.receiveError], fun b hb => by cases b <;> simp_all [SameBlock]⟩

theorem receiveError_noisy (s : State) :
    (confine Fc.receiveError s).evu.raw.getLsbD 11 = decide (96 ≤ (confine Fc.receiveError s).fc.recCount) := by
  rw [← conditions_noisy, confine_receiveError, handEvents_raw]

theorem Slc.sendingMain_of_none {l : Slc} (h : l.tx = none) : l.sendingMain = false := by simp [Slc.sendingMain, h]

/-- A malformed frame of another station's moves the receiver alone. -/
theorem Slc.malformed_other {l : Slc} (h : l.sendingMain = false) (f : Finding) :
    l.malformed f = { l with
      phase := if isEof f then .ready else .hunt, recessive := if isEof f then 4 else 0, rx := none, mark := .none } := by
  simp [Slc.malformed, h]

/-- An own main part found malformed does not complete. -/
theorem Slc.malformed_own {l : Slc} (h : l.sendingMain = true) (f : Finding) :
    (l.malformed f).tx = none ∧ (l.malformed f).driver = .released := by
  simp only [Slc.malformed, h, if_true]
  exact ⟨rfl, rfl⟩

theorem SlotEnded.of_not_main {α : Type} {k : Kind} {x : Sending} (h : ∀ f, x ≠ .main f) (sl : OutSlot α) :
    SlotEnded k x sl sl := by
  cases x with
  | main f => exact absurd rfl (h f)
  | _ => rfl

theorem Slc.not_main_of_sendingMain {l : Slc} {x : Sending} (hx : l.tx = some x) (h : l.sendingMain = false) (f : Frame) :
    x ≠ .main f := by
  rintro rfl
  simp [Slc.sendingMain, hx] at h

theorem Slc.malformed_slots {l : Slc} {x : Sending} (hx : l.tx = some x) (f : Finding) :
    SlotEnded .stake x l.stake (l.malformed f).stake ∧ SlotEnded .ask x l.ask (l.malformed f).ask ∧
      SlotEnded .notice x l.notice (l.malformed f).notice ∧ SlotEnded .muster x l.muster (l.malformed f).muster := by
  cases hm : l.sendingMain with
  | true =>
    simp only [Slc.malformed, hm, if_true]
    exact Slc.stop_slots .stopped hx
  | false =>
    rw [Slc.malformed_other hm]
    have h := Slc.not_main_of_sendingMain hx hm
    exact ⟨.of_not_main h _, .of_not_main h _, .of_not_main h _, .of_not_main h _⟩

theorem Slc.judges_main {l : Slc} {f : Finding} (hp : l.phase = .main) (h : ∀ pulse, f ≠ .ownSof pulse) : l.judges f = true := by
  cases f with
  | ownSof pulse => exact absurd rfl (h pulse)
  | _ => simp [Slc.judges, hp]

/-- Settles O23: what judges the frame ends it, with one receive error. -/
theorem malformedFrameIsDiscarded : Obligations.MalformedFrameIsDiscarded := by
  unfold Obligations.MalformedFrameIsDiscarded
  intro s f hlive hfound
  obtain ⟨hslc, hfc, hchanges⟩ := receiveError_moves s (s.slc.malformed f)
  have hnoisy := receiveError_noisy (s.setSlc (s.slc.malformed f))
  have hexec (hj : s.slc.judges f = true) : exec (.malformedFrame f) s = .next (malformed f s) :=
    (whenLive_of_live hlive).trans (by rw [if_pos (by simp [hj, hfound])])
  refine ⟨fun hp hf => ⟨malformed f s, hexec (Slc.judges_main hp hf), ?_⟩, ?_⟩
  · unfold malformed
    rw [hslc]
    refine ⟨?_, rfl, rfl, fun hm => Slc.malformed_own hm f, hfc, fun x hx => Slc.malformed_slots hx f, fun htx => ?_, hnoisy,
      hchanges⟩
    · cases f <;> exact ⟨rfl, rfl⟩
    · rw [Slc.malformed_other (Slc.sendingMain_of_none htx)]
      exact ⟨rfl, rfl, rfl, rfl⟩
  · rintro pulse rfl hp hmark htx
    refine ⟨_, hexec (by simp [Slc.judges, hp, hmark]), ?_, hfc, hchanges⟩
    rw [malformed, hslc, Slc.malformed_other (Slc.sendingMain_of_none htx)]
    rfl

/-! ### Reply blocks in and out of place (R65, R66) -/

theorem Slc.inPlace_of {l : Slc} {w : Window} (hp : l.phase = .window) (hw : l.window = some w) (hr : w.running = true)
    (hs : w.seen < w.frame.body.kind.blocksAllowed) : l.inPlace = some w := by simp [Slc.inPlace, hp, hw, hr, hs]

theorem Slc.inPlace_none {l : Slc} {w : Window} (hw : l.window = some w)
    (h : w.running = false ∨ w.frame.body.kind.blocksAllowed ≤ w.seen) : l.inPlace = none := by
  rcases h with h | h
  · simp [Slc.inPlace, hw, h]
  · simp [Slc.inPlace, hw, Nat.not_lt.mpr h]

/-- An own reply that ends leaves every slot: it has none. -/
theorem Slc.stop_reply {l : Slc} (h : l.sendingReply = true) (m : OwnMark) : l.stop m = l.release m := by
  cases hx : l.tx with
  | none => simp [Slc.sendingReply, hx] at h
  | some x =>
    cases x with
    | main f => simp [Slc.sendingReply, hx] at h
    | _ => simp [Slc.stop, Slc.attemptEnd, hx]

/-- A reply block in error ends an own reply and a muster reply, and keeps every slot. -/
theorem Slc.replyError_fields (l : Slc) (w : Window) (f : ReplyFinding) :
    (l.sendingReply = true → (l.replyError w f).tx = none) ∧ (l.replyError w f).musterReply ≠ .waiting ∧
      (l.replyError w f).stake = l.stake ∧ (l.replyError w f).ask = l.ask ∧ (l.replyError w f).notice = l.notice ∧
      (l.replyError w f).muster = l.muster := by
  refine ⟨fun h => ?_, Slc.musterDone_not_waiting _, ?_⟩
  · simp only [Slc.replyError, h, if_true]
    rfl
  · cases h : l.sendingReply with
    | true =>
      simp only [Slc.replyError, h, if_true, Slc.stop_reply h]
      exact ⟨rfl, rfl, rfl, rfl⟩
    | false =>
      simp only [Slc.replyError, h]
      exact ⟨rfl, rfl, rfl, rfl⟩

/-- Settles O34: the three places of a finding, and what it does in each. -/
theorem replyErrorStopsTheWindow : Obligations.ReplyErrorStopsTheWindow := by
  unfold Obligations.ReplyErrorStopsTheWindow
  intro s w f hlive hp hw
  have herror {e : ReplyError} {v : Window} (h : s.slc.errorPlace e = some v) :
      exec (.replyBlockError e) s = .next (replyError v e.finding s) :=
    (whenLive_of_live hlive).trans (by simp [replyBlockError, h])
  have hmoves (v : Window) (f : ReplyFinding) := receiveError_moves s (s.slc.replyError v f)
  refine ⟨fun hr hs hfound => ?next, fun gap hr htx hmark hlo hhi hglo hghi => ?edge, fun pos hout => ?out⟩
  case next =>
    have hplace : s.slc.errorPlace ⟨w.seen + 1, f⟩ = some w := by
      simp [Slc.errorPlace, hw, hfound, Nat.not_lt.mpr hs, Slc.inPlace_of hp hw hr hs]
    obtain ⟨hslc, hfc, hchanges⟩ := hmoves w f
    obtain ⟨htx, hmuster, hslots⟩ := Slc.replyError_fields s.slc w f
    refine ⟨_, herror hplace, ?_⟩
    unfold replyError
    rw [hslc]
    obtain ⟨hstake, hask, hnotice, hms⟩ := hslots
    exact ⟨rfl, rfl, hmuster, htx, hfc, hstake, hask, hnotice, hms, hchanges⟩
  case edge =>
    have hgap : gapClass gap = .framingError := by grind [gapClass, bitTimeNs]
    have hplace : s.slc.errorPlace ⟨w.seen, .edge gap⟩ = some { w with seen := w.seen - 1 } := by
      have hended : s.slc.ownJustEnded w = true := by simp [Slc.ownJustEnded, htx, hmark, hp, hr]; omega
      simp [Slc.errorPlace, hw, replyFindingFound, hgap, Nat.not_lt.mpr hhi, isEdge, hended]
    obtain ⟨hslc, hfc, hchanges⟩ := hmoves { w with seen := w.seen - 1 } (.edge gap)
    obtain ⟨-, hmuster, -⟩ := Slc.replyError_fields s.slc { w with seen := w.seen - 1 } (.edge gap)
    refine ⟨_, herror hplace, ?_⟩
    unfold replyError
    rw [hslc]
    refine ⟨?_, rfl, hmuster, hfc, hchanges⟩
    have hseen : w.seen - 1 + 1 = w.seen := Nat.sub_add_cancel hlo
    have hfirst : w.seen - 1 = 0 ↔ w.seen = 1 := by omega
    simp [Slc.replyError, hseen, hfirst]
  case out =>
    have hplace : s.slc.errorPlace ⟨pos, f⟩ = none := by
      rcases hout with h | h
      · simp [Slc.errorPlace, hw, Slc.inPlace_none hw (.inl h), Slc.ownJustEnded, h]
      · simp [Slc.errorPlace, hw, h]
    refine ⟨s.setSlc (s.slc.passOver (findingRecessive f)), (whenLive_of_live hlive).trans (by simp [replyBlockError, hplace]),
      Slc.passOver_fields _ _, fun hpassed htx => ?_, onlyChanges_setSlc _ _⟩
    simp [Slc.passOver, hp, hw, htx, Slc.inPlace_none hw hpassed]

/-! ### The receiver's pulses (R51, R52, R55) -/

theorem startOfFrame_main {s : State} (hp : s.slc.phase = .main) (t pulse : Nat) :
    startOfFrame t pulse s =
      if isBitPulse pulse then s.setSlc { s.slc with recessive := 0 } else malformed (.symbol [] pulse) s := by
  simp [startOfFrame, hp]

theorem startOfFrame_ready {s : State} (hp : s.slc.phase = .ready) (htx : s.slc.tx = none) (t pulse : Nat) :
    startOfFrame t pulse s =
      if pulseClass pulse = .sof then (s.setSlc s.slc.enterMain).setFc (s.fc.sof t) else s.setSlc s.slc.pulseSeen := by
  simp [startOfFrame, hp, htx]

theorem startOfFrame_hunt {s : State} (hp : s.slc.phase = .hunt) (t pulse : Nat) :
    startOfFrame t pulse s = s.setSlc s.slc.pulseSeen := by simp [startOfFrame, hp]

theorem startOfFrame_inPlace {s : State} {w : Window} (hp : s.slc.phase = .window) (hw : s.slc.inPlace = some w) (t pulse : Nat) :
    startOfFrame t pulse s =
      if isBitPulse pulse then s.setSlc { s.slc with recessive := 0 } else replyError w (.symbol pulse) s := by
  simp [startOfFrame, hp, hw]

theorem startOfFrame_outOfPlace {s : State} (hp : s.slc.phase = .window) (hw : s.slc.inPlace = none) (t pulse : Nat) :
    startOfFrame t pulse s = s.setSlc { s.slc with recessive := 0 } := by simp [startOfFrame, hp, hw]

/-- A bit pulse in a frame or a window begins the recessive time anew, and that is all. -/
theorem startOfFrame_bit {s : State} {t pulse : Nat} (hb : isBitPulse pulse = true)
    (hp : s.slc.phase = .main ∨ s.slc.phase = .window) : startOfFrame t pulse s = s.setSlc { s.slc with recessive := 0 } := by
  rcases hp with hp | hp
  · rw [startOfFrame_main hp, if_pos hb]
  · cases hw : s.slc.inPlace with
    | some w => rw [startOfFrame_inPlace hp hw, if_pos hb]
    | none => exact startOfFrame_outOfPlace hp hw t pulse

/-- Settles O19: the receiver's phases one by one. -/
theorem receiverFindsFrames : Obligations.ReceiverFindsFrames := by
  unfold Obligations.ReceiverFindsFrames
  intro s hlive
  have hexec (t pulse : Nat) : exec (.startOfFrame t pulse) s = .next (startOfFrame t pulse s) := whenLive_of_live hlive
  refine ⟨fun hp hstuck => ?ready, fun t pulse hp htx hlo hhi => ?sof, fun t pulse hp htx hout => ?stray, fun t pulse hp => ?hunt,
    fun t pulse hbit hp => ?bit, fun t pulse hno => ⟨fun hp => ?main,
      fun w hp hw => ⟨fun hin => ?inPlace, fun hout => ?outOfPlace⟩⟩⟩
  case ready =>
    exact ⟨_, (whenLive_of_live hlive).trans (by rw [if_pos (by simp [hp, hstuck])]), rfl, onlyChanges_setSlc _ _⟩
  case sof =>
    refine ⟨_, hexec t pulse, ?_⟩
    rw [startOfFrame_ready hp htx, if_pos (pulseClass_eq_sof.mpr ⟨hlo, hhi⟩)]
    exact ⟨rfl, rfl, fun b hb => by cases b <;> simp_all [SameBlock]⟩
  case stray =>
    refine ⟨_, hexec t pulse, ?_⟩
    rw [startOfFrame_ready hp htx, if_neg (by rw [pulseClass_eq_sof]; omega)]
    exact ⟨rfl, onlyChanges_setSlc _ _⟩
  case hunt =>
    refine ⟨_, hexec t pulse, ?_⟩
    rw [startOfFrame_hunt hp]
    exact ⟨rfl, onlyChanges_setSlc _ _⟩
  case bit =>
    refine ⟨_, hexec t pulse, ?_⟩
    rw [startOfFrame_bit (isBitPulse_iff.mpr hbit) hp]
    exact ⟨rfl, onlyChanges_setSlc _ _⟩
  all_goals have hnoBit : ¬isBitPulse pulse = true := by rw [isBitPulse_iff]; omega
  case main =>
    obtain ⟨hslc, hfc, hchanges⟩ := receiveError_moves s (s.slc.malformed (.symbol [] pulse))
    refine ⟨_, hexec t pulse, ?_⟩
    rw [startOfFrame_main hp, if_neg hnoBit, malformed, hslc]
    exact ⟨rfl, rfl, rfl, rfl, fun hm => Slc.malformed_own hm _, hfc, hchanges⟩
  case inPlace =>
    obtain ⟨hr, hs⟩ := hin
    obtain ⟨hslc, hfc, hchanges⟩ := receiveError_moves s (s.slc.replyError w (.symbol pulse))
    obtain ⟨htx, hmuster, -⟩ := Slc.replyError_fields s.slc w (.symbol pulse)
    refine ⟨_, hexec t pulse, ?_⟩
    rw [startOfFrame_inPlace hp (Slc.inPlace_of hp hw hr hs), if_neg hnoBit, replyError, hslc]
    exact ⟨rfl, rfl, hmuster, htx, hfc, hchanges⟩
  case outOfPlace =>
    refine ⟨_, hexec t pulse, ?_⟩
    rw [startOfFrame_outOfPlace hp (Slc.inPlace_none hw hout)]
    exact ⟨rfl, onlyChanges_setSlc _ _⟩

end Sys2Proof.Machine
end

section
/-! SUPPORT. Reply windows: blocks of other stations, the station's own reply, and EOF: O33, O35, O36. -/

namespace Sys2Proof.Machine

/-! ### A block of another station's takes its position (R66, R81, R88) -/

theorem Slc.blockPlace_of {s : State} {w : Window} {k : Kind} (h : s.awaitsBlock w) (hk : w.frame.body.kind = k) :
    s.slc.blockPlace k = some w := by
  obtain ⟨-, hp, hw, hr, hs, hreply⟩ := h
  simp [Slc.blockPlace, Slc.inPlace_of hp hw hr hs, hk, hreply]

theorem actOnSlot_slc (a : Addr) (f : PeerSlot → PeerSlot) (s : State) :
    (actOnSlot a f s).slc = { s.slc with ask := (actOnSlot a f s).slc.ask } := askUpdate_slc _

theorem actOnSlot_onlyChanges (a : Addr) (f : PeerSlot → PeerSlot) (s : State) :
    OnlyChanges [.slc, .ptab] s (actOnSlot a f s) := fun b hb => by cases b <;> simp_all [SameBlock]

/-- A reply that is an address is its sign of life from the end of loading on, the signalling having taken the block. -/
theorem deliverLife_address {s : State} (h : s.csto.loaded.isSome) (a : Addr) (l : Slc) :
    deliverLife (addrByte a) (s.setSlc l) = actOnSlot a PeerSlot.life (s.setSlc l) := by simp [deliverLife, signOfLife, h]

/-- A value of 48..255, and before loading ends any value, is no sign of life. -/
theorem deliverLife_none {v : Byte} {s : State} (h : 48 ≤ v.toNat ∨ s.csto.loaded = none) (l : Slc) :
    deliverLife v (s.setSlc l) = s.setSlc l := by
  rcases h with h | h
  · simp [deliverLife, signOfLife, addrOf?_none h]
  · simp [deliverLife, h]

theorem contestByte_place {s : State} {w : Window} (h : s.slc.blockPlace .stake = some w) (v : Byte) :
    contestByte v s = deliverLife v (s.setSlc (s.slc.takeBlock w)) := by simp [contestByte, h]

theorem musterByte_place {s : State} {w : Window} (h : s.slc.blockPlace .muster = some w) (v : Byte) :
    musterByte v s = musterNext (deliverLife v (s.setSlc (s.slc.takeBlock (w.countMuster v)))) := by simp [musterByte, h]

/-! ### The muster reply after a block (R80) -/

theorem musterNext_window (s : State) : (musterNext s).slc.window = s.slc.window := by
  unfold musterNext
  split <;> rfl

theorem musterNext_tries {s : State} {a : Addr} {w : Window} (hm : s.slc.musterReply = .waiting) (ho : s.sid.own = some a)
    (hw : s.slc.inPlace = some w) : musterNext s = s.setSlc (s.slc.musterTry a) := by simp [musterNext, hm, ho, hw]

theorem musterNext_full {s : State} (hm : s.slc.musterReply = .waiting) (hw : s.slc.inPlace = none) :
    musterNext s = s.setSlc s.slc.musterDone := by simp [musterNext, hm, hw]

theorem musterNext_notWaiting {s : State} (hm : s.slc.musterReply ≠ .waiting) : musterNext s = s := by
  unfold musterNext
  split
  · exact absurd ‹_› hm
  · exact absurd ‹_› hm
  · rfl

/-- After a block of window `w` the muster reply goes on in the window `v` that the block has left. -/
theorem musterNext_nextTry {s x : State} {w v : Window} (hm : x.slc.musterReply = s.slc.musterReply) (htx : x.slc.tx = s.slc.tx)
    (hsid : x.sid = s.sid) (hp : x.slc.phase = .window) (hv : x.slc.window = some v) (hr : v.running = true)
    (hseen : v.seen = w.seen + 1) (hk : v.frame.body.kind = .muster) : NextTry w s (musterNext x) := by
  have hall : v.frame.body.kind.blocksAllowed = 16 := by rw [hk]; rfl
  refine ⟨fun o hwait ho => ?_, fun hwait => ?_⟩
  · rw [← hm] at hwait
    rw [← hsid] at ho
    split
    · rw [musterNext_tries hwait ho (Slc.inPlace_of hp hv hr (by omega))]
      exact ⟨rfl, rfl⟩
    · rw [musterNext_full hwait (Slc.inPlace_none hv (.inr (by omega)))]
      exact Slc.musterDone_done (by simp [hwait])
  · rw [musterNext_notWaiting (hm ▸ hwait)]
    exact ⟨htx, hm⟩

/-- The window once a muster byte has taken its position: at the MUSTER's sender the byte is counted (R81). -/
theorem takeBlock_countMuster (l : Slc) (w : Window) (v : Byte) :
    (l.takeBlock (w.countMuster v)).window =
      some (if w.own then { w.withBlock with musterCount := w.musterCount + 1, lastMuster := some v } else w.withBlock) := by
  unfold Window.countMuster
  split <;> rfl

theorem countMuster_keeps (w : Window) (v : Byte) :
    (w.countMuster v).running = w.running ∧ (w.countMuster v).seen = w.seen ∧ (w.countMuster v).frame = w.frame := by
  unfold Window.countMuster
  split <;> exact ⟨rfl, rfl, rfl⟩

/-- The muster reply after a muster byte that has reached the peer table with the signalling's ASK slot alone moved. -/
theorem musterByte_nextTry {s x : State} {w : Window} {v : Byte} (h : s.awaitsBlock w) (hk : w.frame.body.kind = .muster)
    (hslc : x.slc = { s.slc.takeBlock (w.countMuster v) with ask := x.slc.ask }) (hsid : x.sid = s.sid) :
    NextTry w s (musterNext x) := by
  obtain ⟨-, hp, -, hr, -, -⟩ := h
  obtain ⟨hrun, hseen, hframe⟩ := countMuster_keeps w v
  have hwindow := congrArg Slc.window hslc
  refine musterNext_nextTry (by rw [hslc]; rfl) (by rw [hslc]; rfl) hsid (by rw [hslc]; exact hp) hwindow ?_ ?_ ?_
  · exact hrun.trans hr
  · exact congrArg (· + 1) hseen
  · exact (congrArg (fun f : Frame => f.body.kind) hframe).trans hk

theorem musterNext_onlyChanges (s : State) : OnlyChanges [.slc] s (musterNext s) := fun b hb => by
  cases b <;> simp_all [SameBlock]

/-- Settles O33: each kind of block takes its position; what names an address goes on to the peer table. -/
theorem repliesAreDelivered : Obligations.RepliesAreDelivered := by
  unfold Obligations.RepliesAreDelivered
  intro s w h
  have hlive : s.live := h.1
  have htwo : [Block.slc] ⊆ [.slc, .ptab] := by simp
  refine ⟨fun a hk hl => ?contest, fun v hk hnone => ?contestNone, fun a hk hl => ?muster, fun v hk hnone => ?musterNone,
    fun block hk hlo hhi => ?answer, fun v hk => ?status⟩
  case contest =>
    obtain ⟨hslot, hothers⟩ := actOnSlot_slots a PeerSlot.life (s.setSlc (s.slc.takeBlock w))
    refine ⟨_, whenLive_of_live hlive, ?_⟩
    rw [contestByte_place (Slc.blockPlace_of h hk), deliverLife_address hl]
    refine ⟨?_, hslot, hothers, ((onlyChanges_setSlc s _).mono htwo).trans (actOnSlot_onlyChanges _ _ _)⟩
    rw [actOnSlot_slc]
    rfl
  case contestNone =>
    refine ⟨_, whenLive_of_live hlive, ?_⟩
    rw [contestByte_place (Slc.blockPlace_of h hk), deliverLife_none hnone]
    exact ⟨rfl, onlyChanges_setSlc _ _⟩
  case muster =>
    obtain ⟨hslot, hothers⟩ := actOnSlot_slots a PeerSlot.life (s.setSlc (s.slc.takeBlock (w.countMuster (addrByte a))))
    have hslc := actOnSlot_slc a PeerSlot.life (s.setSlc (s.slc.takeBlock (w.countMuster (addrByte a))))
    refine ⟨_, whenLive_of_live hlive, ?_⟩
    rw [musterByte_place (Slc.blockPlace_of h hk), deliverLife_address hl]
    refine ⟨?_, ?_, ?_, musterByte_nextTry h hk hslc (by simp), ?_⟩
    · rw [musterNext_window, hslc]
      exact takeBlock_countMuster s.slc w (addrByte a)
    · simpa using hslot
    · simpa using hothers
    · have htaken := (onlyChanges_setSlc s (s.slc.takeBlock (w.countMuster (addrByte a)))).mono htwo
      exact (htaken.trans (actOnSlot_onlyChanges _ _ _)).trans ((musterNext_onlyChanges _).mono htwo)
  case musterNone =>
    refine ⟨_, whenLive_of_live hlive, ?_⟩
    rw [musterByte_place (Slc.blockPlace_of h hk), deliverLife_none hnone]
    refine ⟨?_, musterByte_nextTry h hk rfl rfl, (onlyChanges_setSlc s _).trans (musterNext_onlyChanges _)⟩
    rw [musterNext_window]
    exact takeBlock_countMuster _ _ _
  case answer =>
    refine ⟨_, whenLive_of_live hlive, ?_⟩
    simp only [answerReceived, Slc.blockPlace_of h hk]
    rw [if_neg (by omega), if_neg (by omega)]
    refine ⟨?_, onlyChanges_setSlc _ _⟩
    split <;> rfl
  case status =>
    refine ⟨_, whenLive_of_live hlive, ?_⟩
    simp only [fixtureStatusByte, Slc.blockPlace_of h hk]
    exact ⟨rfl, onlyChanges_setSlc _ _⟩

/-! ### The own reply (R67) -/

theorem Slc.sendingReply_of {l : Slc} {x : Sending} (hx : l.tx = some x) (h : ∀ f, x ≠ .main f) : l.sendingReply = true := by
  cases x with
  | main f => exact absurd rfl (h f)
  | _ => simp [Slc.sendingReply, hx]

/-- The state in which the own reply has taken its position, before its owner hears of it. -/
def replyEnded (w : Window) (s : State) : State :=
  s.setSlc { s.slc.release .asSent with recessive := 2, window := some { w with seen := w.seen + 1 } }

theorem ownReply_eq {s : State} {x : Sending} {w : Window} (hx : s.slc.tx = some x) (h : ∀ f, x ≠ .main f)
    (hw : s.slc.inPlace = some w) : ownReply s = replyDone x (replyEnded w s) := by
  simp [ownReply, replyEnded, hx, hw, Slc.sendingReply_of hx h]

theorem clearRequest_bit (e : Evu) (captured : EventSet) {k : Nat} (hk : k < 16) :
    (e.clearRequest captured).latched.getLsbD k = true ↔
      e.latched.getLsbD k = true ∧ ¬(captured.getLsbD k = true ∧ e.marks.getLsbD k = false) := by
  rw [Evu.clearRequest_latched]
  simp only [BitVec.getLsbD_and, BitVec.getLsbD_not, hk, decide_true, Bool.true_and]
  grind

/-- Settles O35: the reply's end at the signalling, and at its owner by what was sent. -/
theorem ownReplyCompletes : Obligations.OwnReplyCompletes := by
  unfold Obligations.OwnReplyCompletes
  intro s w x hlive hp hw hr hs hx hreply
  refine ⟨_, whenLive_of_live hlive, ?_⟩
  rw [ownReply_eq hx hreply (Slc.inPlace_of hp hw hr hs)]
  have hchanges : OnlyChanges [.slc, .sid, .evu] s (replyDone x (replyEnded w s)) := fun b hb => by
    cases b <;> simp_all [SameBlock, replyEnded]
  cases x with
  | main f => exact absurd rfl (hreply f)
  | contest v => exact ⟨rfl, rfl, rfl, rfl, nofun, rfl, rfl, rfl, hchanges⟩
  | status v => exact ⟨rfl, rfl, rfl, rfl, nofun, rfl, rfl, rfl, hchanges⟩
  | muster v => exact ⟨rfl, rfl, rfl, rfl, fun _ _ => Slc.musterDone_not_waiting _, rfl, rfl, rfl, hchanges⟩
  | answer block clears =>
    cases clears with
    | none => exact ⟨rfl, rfl, rfl, rfl, nofun, rfl, rfl, rfl, hchanges⟩
    | some captured =>
      exact ⟨rfl, rfl, rfl, rfl, nofun, fun k hk => clearRequest_bit s.evu captured hk, rfl, rfl, hchanges⟩

/-! ### EOF (R68, R88) -/

theorem Slc.closed_tx (l : Slc) : l.closed.tx = none := by
  unfold Slc.closed
  dsimp only
  split
  · rfl
  next h => simpa using h

/-- With no main part of the station's on the line the close moves no slot. -/
theorem Slc.closed_fields {l : Slc} (h : l.sendingMain = false) :
    l.closed = { l with
      driver := l.closed.driver, tx := none, txPos := l.closed.txPos, phase := .ready, recessive := 4, rx := none, window := none,
      mark := .none, capture := none, musterReply := .notReplying } := by
  unfold Slc.closed
  dsimp only
  cases hx : l.tx with
  | none => simp [hx]
  | some x =>
    have hreply := Slc.sendingReply_of hx (Slc.not_main_of_sendingMain hx h)
    simp [Slc.stop_reply hreply, Slc.release]

/-- A hand-off that finds flags and engine as their owners have them is one of events alone (R26, R30, R127). -/
theorem settle_settled {s : State} (hflags : OwnFlagsInv s) (hengine : EngineInv s) : settle s = handEvents 0 s := by
  have htake : s.takeFlags = s := by
    rw [State.takeFlags, ← hflags]
    rfl
  cases hp : s.csto.loaded with
  | none => simp [settle, hp, htake]
  | some p =>
    obtain ⟨-, hloaded⟩ := hengine
    obtain ⟨hsome, htold, -⟩ := hloaded p hp
    obtain ⟨l, hl⟩ := Option.isSome_iff_exists.mp hsome
    obtain ⟨hown, hcrit, hpeers⟩ := htold l hl
    have hinputs : s.inputs l = s.tge := by
      rw [State.inputs, ← hown, ← hcrit, ← contributionsFollow_iff.mp hpeers]
    have hreturn : s.returnFlags l = s := by
      rw [State.returnFlags, htake, ← hown]
      rfl
    rw [settle_eq_of_loaded hp hl, htake, State.engine, if_pos hinputs, State.setTge_self, hreturn, State.evaluate,
      if_neg (by simp)]

theorem finishWindow_decidesNothing {w : Window} (h : w.decides = false) (s : State) : finishWindow w s = s := by
  unfold Window.decides at h
  unfold finishWindow
  split <;> simp_all

/-- The state of `s` with its frame closed, before the hand-off. -/
def frameClosed (s : State) : State := (s.setSlc s.slc.closed).setSid { s.sid with decision := .none }

theorem closeFrame_eq (w : Window) (s : State) :
    closeFrame w s = settle (frameClosed (if s.csto.loaded.isSome then finishWindow w s else s)) := rfl

/-- Where the window decides nothing, the close is all. -/
theorem closeFrame_decidesNothing {w : Window} {s : State} (h : w.decides = false ∨ s.csto.loaded = none) :
    closeFrame w s = settle (frameClosed s) := by
  rw [closeFrame_eq]
  rcases h with h | h
  · rw [finishWindow_decidesNothing h, ite_self]
  · rw [h]; rfl

theorem keepsViewed_frameClosed (s : State) : KeepsViewed s (frameClosed s) := ⟨rfl, rfl, rfl, rfl, rfl, rfl, rfl⟩

theorem settle_frameClosed {s : State} (hflags : OwnFlagsInv s) (hengine : EngineInv s) :
    settle (frameClosed s) = handEvents 0 (frameClosed s) :=
  settle_settled ((keepsViewed_frameClosed s).ownFlagsInv hflags) ((keepsViewed_frameClosed s).engineInv rfl hengine)

/-- Settles O36: every window closes alike; one that decides nothing leaves the rest. -/
theorem eofClosesTheFrame : Obligations.EofClosesTheFrame := by
  unfold Obligations.EofClosesTheFrame
  intro s w hlive hp hw
  have heof : frameEof s = closeFrame w s := by simp [frameEof, hp, hw]
  refine ⟨closeFrame w s, (whenLive_of_live hlive).trans (by rw [heof]), ?_⟩
  have hchanges : OnlyChanges [.slc, .sid, .ptab, .evu, .lest, .tge] s (closeFrame w s) := fun b hb => by
    cases b <;> simp_all [SameBlock]
  have hslc (x : State) : (settle (frameClosed x)).slc =
      { x.slc.closed with notice := (settle (frameClosed x)).slc.notice, deferred := (settle (frameClosed x)).slc.deferred } :=
    settle_slc_fields _
  refine ⟨?_, ?_, ?_, ?_, ?_, ?_, ?_, fun hm hnone => ?_, hchanges⟩
  · rw [closeFrame_eq, hslc]; rfl
  · rw [closeFrame_eq, hslc]; rfl
  · rw [closeFrame_eq, hslc]; rfl
  · rw [closeFrame_eq, hslc]; exact Slc.closed_tx _
  · rw [closeFrame_eq, hslc]; rfl
  · rw [closeFrame_eq, hslc]; rfl
  · rw [closeFrame_eq, settle_sid]; rfl
  · have hclosed := Slc.closed_fields hm
    rw [closeFrame_decidesNothing hnone]
    refine ⟨settle_ptab _, settle_sid _, ?_, ?_, ?_, ?_, ?_, ?_, fun hflags hengine => ?_⟩
    · rw [hslc, hclosed]
    · rw [hslc, hclosed]
    · rw [hslc, hclosed]
    · rw [hslc, hclosed]
    · rw [hslc, hclosed]
    · rw [hslc, hclosed]
    · rw [settle_frameClosed hflags hengine]
      exact ⟨(congrArg Slc.notice hclosed :), (congrArg Slc.deferred hclosed :), rfl, rfl⟩

end Sys2Proof.Machine
end

section
/-! SUPPORT. ASK main parts of other stations: the sign of life that each is, and the answer that its target gives: O30. -/

namespace Sys2Proof.Machine

/-! ### Arisal marks -/

/-- No arisal mark has been cleared. -/
def MarksKept (s t : State) : Prop := t.evu.marks &&& s.evu.marks = s.evu.marks

theorem marksKept_of_same {s t : State} (h : t.evu = s.evu) : MarksKept s t := by
  unfold MarksKept
  rw [h, BitVec.and_self]

theorem MarksKept.trans {s t u : State} (h : MarksKept s t) (k : MarksKept t u) : MarksKept s u := by
  unfold MarksKept at *
  calc u.evu.marks &&& s.evu.marks
      = u.evu.marks &&& (t.evu.marks &&& s.evu.marks) := by rw [h]
    _ = s.evu.marks := by rw [← BitVec.and_assoc, k, h]

theorem marksKept_handEvents (pulses : EventSet) (s : State) : MarksKept s (handEvents pulses s) := by
  unfold MarksKept
  rw [handEvents_evu, Evu.take_marks]
  ext k hk
  simp +contextual

theorem marksKept_linkChosen (s : State) : MarksKept s (linkChosen s) := by
  unfold linkChosen resumeChoice
  split
  · exact marksKept_of_same rfl
  · split
    · split
      · unfold chooseCandidate
        split
        · split
          · exact marksKept_of_same rfl
          · exact MarksKept.trans (marksKept_of_same (by simp)) (marksKept_handEvents 0 _)
        · exact marksKept_of_same rfl
      · exact marksKept_of_same rfl
    · exact marksKept_of_same rfl

theorem linkTaken_evu (old : LinkState) (s : State) : (linkTaken old s).evu = s.evu := by simp [linkTaken]

theorem marksKept_linkHandOff (old : LinkState) (s : State) : MarksKept s (linkHandOff old s) := by
  by_cases h : s.fc.link = old
  · rw [linkHandOff_same h]
    exact marksKept_handEvents 0 s
  · rw [linkHandOff_changed h]
    exact ((marksKept_of_same (linkTaken_evu old s)).trans (marksKept_linkChosen _)).trans (marksKept_handEvents 0 _)

/-! ### The duplicate test -/

/-- A main part with the own address as its source starts the re-assertion, where none is pending (R103). -/
theorem duplicateTest_fires {src : Byte} {o : Addr} {s : State} (hst : s.sid.st = .run) (ho : s.sid.own = some o)
    (hsrc : src = addrByte o) (hr : s.sid.reassert = false) :
    duplicateTest src s = handEvents evDupAddress
      ((s.setSid { s.sid with reassert := true }).setSlc (s.slc.fillStake { target := o, mode := .held, uid := s.sid.uid })) := by
  unfold duplicateTest
  split
  next o' ho' =>
    obtain rfl := Option.some.inj (ho.symm.trans ho')
    rw [if_pos (by simp [hst, hsrc, hr])]
    rfl
  next hn => cases ho.symm.trans hn

theorem duplicateTest_pending {s : State} (hr : s.sid.reassert = true) (src : Byte) : duplicateTest src s = s := by
  unfold duplicateTest
  split
  · rw [if_neg (by simp [hr])]
  · rfl

/-- Identity after the test at a holder (R103). -/
theorem duplicateTest_sid {src : Byte} {o : Addr} {s : State} (hst : s.sid.st = .run) (ho : s.sid.own = some o) :
    (duplicateTest src s).sid = if src = addrByte o then { s.sid with reassert := true } else s.sid := by
  by_cases hsrc : src = addrByte o
  · rw [if_pos hsrc]
    cases hr : s.sid.reassert with
    | false => rw [duplicateTest_fires hst ho hsrc hr]; rfl
    | true => rw [duplicateTest_pending hr, ← hr]
  · rw [if_neg hsrc, duplicateTest_none (.inr fun o' ho' => ?_)]
    rwa [Option.some.inj (ho'.symm.trans ho)]

theorem marksKept_duplicateTest (src : Byte) (s : State) : MarksKept s (duplicateTest src s) := by
  unfold duplicateTest
  split
  · split
    · exact MarksKept.trans (marksKept_of_same rfl) (marksKept_handEvents _ _)
    · exact marksKept_of_same rfl
  · exact marksKept_of_same rfl

theorem linkHandOff_onlyChanges (old : LinkState) (s : State) : OnlyChanges [.slc, .ptab, .sid, .evu] s (linkHandOff old s) :=
  fun b hb => by cases b <;> simp_all [SameBlock]

theorem linkHandOff_sid_notClaiming {old : LinkState} {y : State} (h : y.sid.st ≠ .claiming) :
    (linkHandOff old y).sid = y.sid := by
  by_cases hs : y.fc.link = old
  · rw [linkHandOff_same hs]; simp
  · have hst : (linkTaken old y).sid.st ≠ .claiming := by rwa [linkTaken_sid]
    have hchosen : linkChosen (linkTaken old y) = linkTaken old y := by
      unfold linkChosen resumeChoice
      split
      · rfl
      · split
        · rw [if_neg (by simp [hst])]
        · rfl
    rw [linkHandOff_changed hs, hchosen, handEvents_sid, linkTaken_sid]

/-! ### A main part that is a sign of life -/

/-- The state in which the main part `f` of address `a` has been delivered as a sign of life (R63, R87, R103). -/
def lifeDelivered (f : Frame) (a : Addr) (s : State) : State :=
  actOnSlot a PeerSlot.life (duplicateTest (addrByte a) (receiveMain f s))

section
variable (f : Frame) (a : Addr) (s : State)

theorem lifeDelivered_slots :
    (lifeDelivered f a s).ptab.slots.get a = (s.ptab.slots.get a).life ∧
      ∀ b : Addr, b ≠ a → (lifeDelivered f a s).ptab.slots.get b = s.ptab.slots.get b := by
  simpa [lifeDelivered] using actOnSlot_slots a PeerSlot.life (duplicateTest (addrByte a) (receiveMain f s))

theorem lifeDelivered_fc : (lifeDelivered f a s).fc = s.fc.validMain false := by simp [lifeDelivered, receiveMain_fc]

theorem lifeDelivered_sid : (lifeDelivered f a s).sid = (duplicateTest (addrByte a) (receiveMain f s)).sid := by
  simp [lifeDelivered]

theorem lifeDelivered_evu : (lifeDelivered f a s).evu = (duplicateTest (addrByte a) (receiveMain f s)).evu := by
  simp [lifeDelivered]

/-- Of identity the delivery moves the re-assertion at most. -/
theorem lifeDelivered_identity : (lifeDelivered f a s).sid.st = s.sid.st ∧ (lifeDelivered f a s).sid.own = s.sid.own ∧
    (lifeDelivered f a s).sid.uid = s.sid.uid := by
  obtain ⟨hsid, -⟩ := duplicateTest_keeps (addrByte a) (receiveMain f s)
  rw [lifeDelivered_sid, hsid]
  simp

theorem lifeDelivered_slc : (lifeDelivered f a s).slc = { s.slc.openWindow f false with
    stake := (lifeDelivered f a s).slc.stake, ask := (lifeDelivered f a s).slc.ask } := by
  obtain ⟨-, hslc⟩ := duplicateTest_keeps (addrByte a) (receiveMain f s)
  have hlife := actOnSlot_slc a PeerSlot.life (duplicateTest (addrByte a) (receiveMain f s))
  rw [lifeDelivered, hlife, hslc, receiveMain_slc]

theorem lifeDelivered_onlyChanges : OnlyChanges [.slc, .fc, .ptab, .sid, .evu] s (lifeDelivered f a s) := fun b hb => by
  cases b <;> simp_all [SameBlock, lifeDelivered]

theorem marksKept_lifeDelivered : MarksKept s (lifeDelivered f a s) := by
  have hreceived : MarksKept s (receiveMain f s) := MarksKept.trans (marksKept_of_same rfl) (marksKept_handEvents 0 _)
  exact (hreceived.trans (marksKept_duplicateTest (addrByte a) _)).trans (marksKept_of_same (by simp [lifeDelivered]))

variable {a s}

/-- Outside RUN the delivery leaves identity and STAKE slot. -/
theorem lifeDelivered_notRun (h : s.sid.st ≠ .run) :
    (lifeDelivered f a s).sid = s.sid ∧ (lifeDelivered f a s).slc.stake = s.slc.stake := by
  have hnone := duplicateTest_none (src := addrByte a) (s := receiveMain f s) (.inl (by simpa using h))
  refine ⟨by rw [lifeDelivered_sid, hnone]; simp, ?_⟩
  rw [lifeDelivered, actOnSlot_slc, hnone, receiveMain_slc]
  rfl

theorem lifeDelivered_tested {o : Addr} (hst : s.sid.st = .run) (ho : s.sid.own = some o) :
    (lifeDelivered f a s).sid = if addrByte a = addrByte o then { s.sid with reassert := true } else s.sid := by
  rw [lifeDelivered_sid, duplicateTest_sid (by simpa using hst) (by simpa using ho)]
  simp

/-- The delivery, with the link state handed on after it, is a sign of life alone (R87, R111, R150). -/
theorem lifeDelivered_heardAlone :
    WindowOpened f false (linkHandOff s.fc.link (lifeDelivered f a s)) ∧
      HeardAlone a s (linkHandOff s.fc.link (lifeDelivered f a s)) := by
  have hfc := lifeDelivered_fc f a s
  have hlink : s.fc.link ≠ .active ∨ (lifeDelivered f a s).fc.link = s.fc.link := by rw [hfc]; exact s.fc.validMain_link
  have hufc : (linkHandOff s.fc.link (lifeDelivered f a s)).fc = s.fc.validMain false := by simp [hfc]
  obtain ⟨hhanded, -⟩ := linkHandOff_keeps hlink
  have hslc := lifeDelivered_slc f a s
  obtain ⟨hself, hothers⟩ := lifeDelivered_slots f a s
  refine ⟨?window, ⟨?tx, ?capture, ?muster, countsFall_of_fc hufc, ?marks, fun hst hsearch => ?identity, fun hne => ?choice,
    fun o hst ho => ?tested, ?changes⟩, ?self, fun b hb => ?others⟩
  case window =>
    rw [WindowOpened, hhanded, hslc]
    exact ⟨rfl, rfl⟩
  case tx => rw [hhanded, hslc]; rfl
  case capture => rw [hhanded, hslc]; rfl
  case muster => rw [hhanded, hslc]; rfl
  case marks => exact (marksKept_lifeDelivered f a s).trans (marksKept_linkHandOff _ _)
  case identity =>
    obtain ⟨hsid, -⟩ := lifeDelivered_notRun f (a := a) hst
    rw [linkHandOff_sid ?_, hsid]
    rw [hsid]
    refine hsearch.imp_right fun h => ?_
    rwa [hfc, ← hufc]
  case choice =>
    rw [hufc] at hne
    obtain ⟨hactive, hold⟩ := Fc.validMain_returns hne
    exact linkHandOff_waitingChoiceMade (by rwa [hfc]) hold fun hclaiming => lifeDelivered_notRun f (by simp [hclaiming])
  case tested =>
    obtain ⟨hkept, -⟩ := lifeDelivered_identity f a s
    rw [TestedForDuplicate, linkHandOff_sid_notClaiming (by simp [hkept, hst]), lifeDelivered_tested f hst ho]
  case changes =>
    exact (lifeDelivered_onlyChanges f a s).trans ((linkHandOff_onlyChanges _ _).mono (by simp))
  case self => rw [linkHandOff_slots, hself]
  case others => rw [linkHandOff_slots, hothers b hb]

end

/-! ### An ASK -/

theorem ask_wellFormed (a : Addr) {tgt : Byte} (sel : Byte) (h : tgt.toNat < 48) :
    (⟨addrByte a, tgt, .ask sel⟩ : Frame).malformed = false := by
  simp [Frame.malformed, Body.kind, Body.payload, Kind.lengthOk, Kind.sourceOk, Kind.targetOk, h, a.isLt]

/-- The commands that bring an ASK in are one command each selector. -/
theorem exec_ask {c : Instr} {src tgt sel : Byte} {s : State} (hc : mainPart c = some ⟨src, tgt, .ask sel⟩) (hlive : s.live) :
    exec c s = .next (askReceived src tgt sel s) := by
  cases c with
  | capability | status | statusClear | identity | gains | targets | storeState | page | unknownSelector =>
    obtain ⟨rfl, rfl, hb⟩ := Frame.mk.inj (Option.some.inj hc)
    obtain rfl := Body.ask.inj hb
    exact whenLive_of_live hlive
  | noticeReceived | musterReceived | stakeReceived | arm | disarm | burn | lock | unknownCommand =>
    obtain ⟨-, -, hb⟩ := Frame.mk.inj (Option.some.inj hc)
    cases hb
  | _ => cases hc

/-- An ASK is delivered as a sign of life, and handled at its target (R83, R87). -/
theorem askReceived_eq {s : State} (hr : s.receiving) (hl : s.csto.loaded.isSome) (a : Addr) {tgt : Byte} (sel : Byte)
    (h : tgt.toNat < 48) :
    askReceived (addrByte a) tgt sel s =
      linkHandOff s.fc.link (askAtEob tgt sel s.fc.link (lifeDelivered ⟨addrByte a, tgt, .ask sel⟩ a s)) := by
  have hd : deliver ⟨addrByte a, tgt, .ask sel⟩ (receiveMain ⟨addrByte a, tgt, .ask sel⟩ s) =
      lifeDelivered ⟨addrByte a, tgt, .ask sel⟩ a s := by
    simp [deliver, deliverToTable, lifeDelivered, signOfLife, hl]
  rw [askReceived, frameReceived_eq hr (ask_wellFormed a sel h) hl, hd]

theorem askAtEob_none {tgt sel : Byte} {link : LinkState} {s : State}
    (h : s.sid.st ≠ .run ∨ link ≠ .active ∨ ∀ o, s.sid.own = some o → tgt ≠ addrByte o) : askAtEob tgt sel link s = s := by
  unfold askAtEob
  split
  next o ho =>
    rw [if_neg]
    simp only [Bool.and_eq_true, decide_eq_true_eq, mayReply_iff]
    rintro ⟨⟨hlink, hst⟩, htgt⟩
    rcases h with h | h | h
    · exact h hst
    · exact h hlink
    · exact h o ho htgt
  next => rfl

theorem askAtEob_holder {sel : Byte} {o : Addr} {s : State} (hst : s.sid.st = .run) (ho : s.sid.own = some o) :
    askAtEob (addrByte o) sel .active s = giveAnswer sel s := by simp [askAtEob, mayReply, hst, ho]

/-! ### The answer (R83, R84) -/

theorem Fc.validMain_active {f : Fc} (h : f.link = .active) : f.validMain false = { f with recCount := f.recCount - 1 } := by
  simp [Fc.validMain, h]

/-- The state in which the holder of `o` has given its answer to address `a`. -/
def askAnswered (a o : Addr) (sel : Byte) (s : State) : State :=
  handEvents 0 (giveAnswer sel (lifeDelivered ⟨addrByte a, addrByte o, .ask sel⟩ a s))

theorem askReceived_holder {s : State} {o : Addr} (hr : s.receiving) (h : s.holder o) (a : Addr) (sel : Byte) :
    askReceived (addrByte a) (addrByte o) sel s = askAnswered a o sel s := by
  obtain ⟨hst, ho, hlink, hl⟩ := h
  obtain ⟨hst', ho', -⟩ := lifeDelivered_identity ⟨addrByte a, addrByte o, .ask sel⟩ a s
  rw [askReceived_eq hr hl a sel (by simp [o.isLt]), hlink, askAtEob_holder (hst'.trans hst) (ho'.trans ho)]
  refine linkHandOff_same ?_
  simp [lifeDelivered_fc, Fc.validMain_active hlink, hlink]

theorem handEvents_slc (pulses : EventSet) (s : State) : (handEvents pulses s).slc = s.slc := rfl

theorem giveAnswer_slc (sel : Byte) (s : State) : (giveAnswer sel s).slc =
    { s.slc with capture := some (captureFor sel s) }.start (.answer (captureFor sel s).block (captureFor sel s).clears) := by
  unfold giveAnswer
  dsimp only
  split <;> rfl

theorem giveAnswer_evu (sel : Byte) (s : State) :
    (giveAnswer sel s).evu = if sel = 0x02 then s.evu.clearMarks else s.evu := by
  unfold giveAnswer
  dsimp only
  split <;> rfl

theorem giveAnswer_conditions (sel : Byte) (s : State) : (giveAnswer sel s).conditions = s.conditions := by
  simp [State.conditions]

theorem eventsFollow_duplicateTest (src : Byte) (s : State) : EventsFollow s (duplicateTest src s) := by
  unfold duplicateTest
  split
  · exact eventsFollow_ite (eventsFollow_handEvents _ _ _) (.refl s)
  · exact .refl s

/-- From the main part's own hand-off of events on the raw set is true (R68, R173). -/
theorem lifeDelivered_rawSetInv (f : Frame) (a : Addr) (s : State) : RawSetInv (lifeDelivered f a s) := by
  have hreceived : RawSetInv (receiveMain f s) := handEvents_raw 0 _
  have htested := (eventsFollow_duplicateTest (addrByte a) (receiveMain f s)).1 hreceived
  exact (eventsFollow_of_same (by simp [lifeDelivered]) (by simp [State.conditions, lifeDelivered])).1 htested

/-- The hand-off of events where the raw set is true lets none arise. -/
theorem Evu.take_settled {e : Evu} {now : EventSet} (h : e.raw = now) :
    (e.take now 0).raw = now ∧ (e.take now 0).latched = e.latched ∧ (e.take now 0).marks = e.marks := by
  simp [h]

/-- The event unit after the answer: as at its capture, with the marks cleared by STATUS_CLEAR (R177). -/
theorem askAnswered_evu (a o : Addr) (sel : Byte) (s : State) :
    (askAnswered a o sel s).evu.raw = (lifeDelivered ⟨addrByte a, addrByte o, .ask sel⟩ a s).evu.raw ∧
      (askAnswered a o sel s).evu.latched = (lifeDelivered ⟨addrByte a, addrByte o, .ask sel⟩ a s).evu.latched ∧
      (askAnswered a o sel s).evu.marks =
        if sel = 0x02 then 0 else (lifeDelivered ⟨addrByte a, addrByte o, .ask sel⟩ a s).evu.marks := by
  have hraw : (giveAnswer sel (lifeDelivered ⟨addrByte a, addrByte o, .ask sel⟩ a s)).evu.raw =
      (lifeDelivered ⟨addrByte a, addrByte o, .ask sel⟩ a s).evu.raw := by
    rw [giveAnswer_evu]
    split <;> rfl
  have htrue := lifeDelivered_rawSetInv ⟨addrByte a, addrByte o, .ask sel⟩ a s
  obtain ⟨hr, hlat, hmarks⟩ := Evu.take_settled (hraw.trans (htrue.trans (giveAnswer_conditions sel _).symm))
  rw [askAnswered, handEvents_evu, hr, hlat, hmarks, giveAnswer_conditions, ← htrue, giveAnswer_evu]
  split <;> exact ⟨rfl, rfl, rfl⟩

/-- The answer is the one for the selector in the state that the delivery has left. -/
theorem askAnswered_given {s : State} {o : Addr} (h : s.holder o) (a : Addr) (sel : Byte) :
    AnswerGiven a o (answerFor sel (lifeDelivered ⟨addrByte a, addrByte o, .ask sel⟩ a s)).1
      (answerFor sel (lifeDelivered ⟨addrByte a, addrByte o, .ask sel⟩ a s)).2
      (if sel = 0x02 then some (askAnswered a o sel s).evu.latched else none) s (askAnswered a o sel s) := by
  obtain ⟨hst, ho, hlink, -⟩ := h
  obtain ⟨-, hlatched, -⟩ := askAnswered_evu a o sel s
  obtain ⟨hself, hothers⟩ := lifeDelivered_slots ⟨addrByte a, addrByte o, .ask sel⟩ a s
  rw [hlatched]
  refine ⟨?tx, ?capture, ?self, fun b hb => ?others, ?fc, ?tested, ?changes⟩
  case tx =>
    rw [askAnswered, handEvents_slc, giveAnswer_slc]
    rfl
  case capture =>
    rw [askAnswered, handEvents_slc, giveAnswer_slc]
    rfl
  case self => simpa [askAnswered] using hself
  case others => simpa [askAnswered] using hothers b hb
  case fc => simp [askAnswered, lifeDelivered_fc, Fc.validMain_active hlink]
  case tested =>
    rw [TestedForDuplicate, ← lifeDelivered_tested ⟨addrByte a, addrByte o, .ask sel⟩ hst ho]
    simp [askAnswered]
  case changes =>
    refine (lifeDelivered_onlyChanges ⟨addrByte a, addrByte o, .ask sel⟩ a s).trans fun b hb => ?_
    cases b <;> simp_all [SameBlock, askAnswered]

/-! ### The arisal marks at the capture (R103, R177) -/

theorem Fc.noisy_of_fallen {f : Fc} (h : Fc.noisy { f with recCount := f.recCount - 1 } = true) : f.noisy = true := by
  simp only [Fc.noisy, decide_eq_true_eq] at h ⊢
  omega

/-- Entry 11 stands with the entries before and after it in the conditions: where it does not arise, none does. -/
theorem none_arises_beside {n n' : Bool} (h : n' = true → n = true) (before x y : EventSet) :
    (before ||| entryIf 11 n' ||| x ||| y) &&& ~~~(before ||| entryIf 11 n ||| x ||| y) = 0 := by
  cases n' with
  | true => rw [h rfl, BitVec.and_not_self]
  | false =>
    ext k hk
    have hclear : (entryIf 11 false)[k] = false := by simp [entryIf]
    simp only [BitVec.getElem_and, BitVec.getElem_or, BitVec.getElem_not, hclear]
    grind

/-- A fall of REC by 1 lets no condition arise (R148). -/
theorem conditions_recFalls (s : State) :
    (s.setFc { s.fc with recCount := s.fc.recCount - 1 }).conditions &&& ~~~s.conditions = 0 :=
  none_arises_beside Fc.noisy_of_fallen _ _ _

/-- A main part that leaves the link state ACTIVE sets no mark, where the raw set was true. -/
theorem receiveMain_marks {f : Frame} {s : State} (hlink : s.fc.link = .active) (hraw : RawSetInv s) :
    (receiveMain f s).evu.marks = s.evu.marks := by
  have hnone : (s.setFc (s.fc.validMain false)).conditions &&& ~~~s.evu.raw = 0 := by
    rw [Fc.validMain_active hlink, hraw]
    exact conditions_recFalls s
  change s.evu.marks ||| (((s.setFc (s.fc.validMain false)).conditions &&& ~~~s.evu.raw) ||| 0) = _
  rw [hnone]
  simp

/-- The marks after the delivery: DUP_ADDRESS alone can have been set, by an asker with the own address (R103). -/
theorem lifeDelivered_marks {s : State} {a o : Addr} (f : Frame) (h : s.holder o) (hraw : RawSetInv s) :
    (lifeDelivered f a s).evu.marks = if a = o ∧ s.sid.reassert = false then s.evu.marks ||| 0x8000 else s.evu.marks := by
  obtain ⟨hst, ho, hlink, -⟩ := h
  have hmarks := receiveMain_marks (f := f) hlink hraw
  have hreceived : RawSetInv (receiveMain f s) := handEvents_raw 0 _
  rw [lifeDelivered_evu]
  split
  next hdup =>
    obtain ⟨rfl, hr⟩ := hdup
    rw [duplicateTest_fires (by simpa using hst) (by simpa using ho) rfl (by simpa using hr)]
    change (receiveMain f s).evu.marks ||| (((receiveMain f s).conditions &&& ~~~(receiveMain f s).evu.raw) ||| evDupAddress) = _
    rw [hreceived, BitVec.and_not_self, hmarks]
    rfl
  next hdup =>
    cases hr : s.sid.reassert with
    | true => rw [duplicateTest_pending (by simpa using hr), hmarks]
    | false =>
      rw [duplicateTest_none (.inr fun o' ho' => ?_), hmarks]
      have ho' : some o = some o' := ho.symm.trans (by simpa using ho')
      rw [← Option.some.inj ho', ne_eq, addrByte_inj]
      exact fun e => hdup ⟨e, hr⟩

/-! ### The answers selector by selector (R84) -/

theorem answerFor_page (k : BitVec 4) (s : State) :
    answerFor (0x80 + k.setWidth 8) s = pageAnswer k.toNat s ∧ (0x80 : Byte) + k.setWidth 8 ≠ 0x02 := by
  have hk := k.isLt
  have hn : ((0x80 : Byte) + k.setWidth 8).toNat = 128 + k.toNat := by simp; omega
  refine ⟨?_, fun h => ?_⟩
  · unfold answerFor
    rw [hn]
    split
    case h_8 => rw [if_pos (by omega), Nat.add_sub_cancel_left]
    all_goals omega
  · have := congrArg BitVec.toNat h
    rw [hn] at this
    simp at this
    omega

theorem answerFor_unknown {sel : Byte} (h : 6 < sel.toNat) (hpage : sel.toNat < 0x80 ∨ 0x8F < sel.toNat) (s : State) :
    answerFor sel s = (answerUnknown, []) ∧ sel ≠ 0x02 := by
  refine ⟨?_, ?_⟩
  · unfold answerFor
    split
    case h_8 => rw [if_neg (by omega)]
    all_goals omega
  · rintro rfl
    simp at h

/-- The command of a selector, at the holder of `o`: the answer that the selector names is given. -/
theorem exec_ask_holder {c : Instr} {s : State} {a o : Addr} {sel : Byte} (hr : s.receiving) (h : s.holder o)
    (hc : mainPart c = some ⟨addrByte a, addrByte o, .ask sel⟩) :
    exec c s = .next (askAnswered a o sel s) ∧
      AnswerGiven a o (answerFor sel (lifeDelivered ⟨addrByte a, addrByte o, .ask sel⟩ a s)).1
        (answerFor sel (lifeDelivered ⟨addrByte a, addrByte o, .ask sel⟩ a s)).2
        (if sel = 0x02 then some (askAnswered a o sel s).evu.latched else none) s (askAnswered a o sel s) := by
  refine ⟨?_, askAnswered_given h a sel⟩
  rw [exec_ask hc hr.1, askReceived_holder hr h]

/-- What the delivery leaves as it was, of all that the answers read. -/
theorem lifeDelivered_reads (f : Frame) (a : Addr) (s : State) :
    (lifeDelivered f a s).lest = s.lest ∧ (lifeDelivered f a s).tge = s.tge ∧ (lifeDelivered f a s).csto = s.csto := by
  simp [lifeDelivered]

/-- STATUS data at a holder: raw set and latched set as they stand after the answer, REC after its fall (R68, R176). -/
theorem statusData_holder {s : State} {o : Addr} (h : s.holder o) (a : Addr) (sel : Byte) :
    statusData (lifeDelivered ⟨addrByte a, addrByte o, .ask sel⟩ a s) =
      bytes16 (askAnswered a o sel s).evu.raw ++ bytes16 (askAnswered a o sel s).evu.latched ++
        [3, 0, BitVec.ofNat 8 s.fc.tec, BitVec.ofNat 8 (s.fc.recCount - 1)] := by
  obtain ⟨hst, -, hlink, -⟩ := h
  obtain ⟨hraw, hlatched, -⟩ := askAnswered_evu a o sel s
  obtain ⟨hst', -⟩ := lifeDelivered_identity ⟨addrByte a, addrByte o, .ask sel⟩ a s
  rw [statusData, hraw, hlatched, hst', hst, lifeDelivered_fc, Fc.validMain_active hlink, hlink]
  rfl

theorem askAnswered_marks {s : State} {o : Addr} (h : s.holder o) (hraw : RawSetInv s) (a : Addr) {sel : Byte} (hsel : sel ≠ 0x02) :
    (askAnswered a o sel s).evu.marks =
      if a = o ∧ s.sid.reassert = false then s.evu.marks ||| 0x8000 else s.evu.marks := by
  obtain ⟨-, -, hmarks⟩ := askAnswered_evu a o sel s
  rw [hmarks, if_neg hsel, lifeDelivered_marks _ h hraw]

/-- Settles O30: every ASK is a sign of life; at a holder it draws the answer of its selector. -/
theorem askIsAnswered : Obligations.AskIsAnswered := by
  unfold Obligations.AskIsAnswered
  refine ⟨fun s a tgt sel c hr hl hc htgt hnone => ?others, fun s a o l tg md hr h hraw hlum htarget hmedian => ?holder⟩
  case others =>
    obtain ⟨hst, hown, -⟩ := lifeDelivered_identity ⟨addrByte a, tgt, .ask sel⟩ a s
    have hsame := askAtEob_none (tgt := tgt) (sel := sel) (link := s.fc.link)
      (s := lifeDelivered ⟨addrByte a, tgt, .ask sel⟩ a s) (by rwa [hst, hown])
    obtain ⟨hwindow, hlife⟩ := lifeDelivered_heardAlone ⟨addrByte a, tgt, .ask sel⟩ (a := a) (s := s)
    refine ⟨_, exec_ask hc hr.1, ?_⟩
    rw [askReceived_eq hr hl a sel htgt, hsame]
    exact ⟨hwindow, hlife⟩
  case holder =>
    have hreads (sel : Byte) := lifeDelivered_reads ⟨addrByte a, addrByte o, .ask sel⟩ a s
    refine ⟨?capability, ?status, ?statusClear, ?identity, ?gains, ?targets, ?storeState, fun k => ?page,
      fun sel hsel hpage => ?unknown⟩
    case capability =>
      obtain ⟨hexec, hgiven⟩ := exec_ask_holder (c := .capability (addrByte a) (addrByte o)) hr h rfl
      obtain ⟨hlest, -, -⟩ := hreads 0x00
      have hdata : (answerFor 0x00 (lifeDelivered ⟨addrByte a, addrByte o, .ask 0x00⟩ a s)).2 =
          rgbBytes l ++ [s.lest.ownFlags] := by
        change capabilityData _ = _
        rw [capabilityData, Lest.triple, hlest, hlum]
        rfl
      exact ⟨_, hexec, hdata ▸ hgiven⟩
    case status =>
      obtain ⟨hexec, hgiven⟩ := exec_ask_holder (c := .status (addrByte a) (addrByte o)) hr h rfl
      exact ⟨_, hexec, statusData_holder h a 0x01 ▸ hgiven, askAnswered_marks h hraw a (by decide)⟩
    case statusClear =>
      obtain ⟨hexec, hgiven⟩ := exec_ask_holder (c := .statusClear (addrByte a) (addrByte o)) hr h rfl
      obtain ⟨-, -, hmarks⟩ := askAnswered_evu a o 0x02 s
      exact ⟨_, hexec, statusData_holder h a 0x02 ▸ hgiven, hmarks⟩
    case identity =>
      obtain ⟨hexec, hgiven⟩ := exec_ask_holder (c := .identity (addrByte a) (addrByte o)) hr h rfl
      obtain ⟨-, hown, huid⟩ := lifeDelivered_identity ⟨addrByte a, addrByte o, .ask 0x03⟩ a s
      obtain ⟨-, ho, -, -⟩ := h
      have hdata : (answerFor 0x03 (lifeDelivered ⟨addrByte a, addrByte o, .ask 0x03⟩ a s)).2 =
          bytes64 s.sid.uid ++ [addrByte o] := by
        change identityData _ = _
        rw [identityData, huid, ownByte_of_own (hown.trans ho)]
      exact ⟨_, hexec, hdata ▸ hgiven⟩
    case gains =>
      obtain ⟨hexec, hgiven⟩ := exec_ask_holder (c := .gains (addrByte a) (addrByte o)) hr h rfl
      obtain ⟨-, htge, -⟩ := hreads 0x04
      have hdata : (answerFor 0x04 (lifeDelivered ⟨addrByte a, addrByte o, .ask 0x04⟩ a s)).2 =
          rgbBytes s.tge.applied ++ [BitVec.ofNat 8 s.tge.size, marksByte s.tge.marks,
            (if s.tge.floored then 1 else 0) ||| (if s.tge.belowFloor then 2 else 0)] := by
        have hflag : boolByte s.tge.belowFloor <<< 1 = if s.tge.belowFloor then 2 else 0 := by
          cases s.tge.belowFloor <;> rfl
        change gainsData _ = _
        rw [gainsData, htge, hflag]
        rfl
      exact ⟨_, hexec, hdata ▸ hgiven⟩
    case targets =>
      obtain ⟨hexec, hgiven⟩ := exec_ask_holder (c := .targets (addrByte a) (addrByte o)) hr h rfl
      obtain ⟨-, htge, -⟩ := hreads 0x05
      have hdata : (answerFor 0x05 (lifeDelivered ⟨addrByte a, addrByte o, .ask 0x05⟩ a s)).2 = rgbBytes tg ++ rgbBytes md := by
        change targetsData _ = _
        rw [targetsData, htge, htarget, hmedian]
        rfl
      exact ⟨_, hexec, hdata ▸ hgiven⟩
    case storeState =>
      obtain ⟨hexec, hgiven⟩ := exec_ask_holder (c := .storeState (addrByte a) (addrByte o)) hr h rfl
      obtain ⟨-, -, hcsto⟩ := hreads 0x06
      have hdata : (answerFor 0x06 (lifeDelivered ⟨addrByte a, addrByte o, .ask 0x06⟩ a s)).2 =
          [if s.csto.burn.isSome then 1 else 0, if s.csto.latch then 1 else 0, s.csto.lastResult.code, s.csto.lockMarks] := by
        change storeStateData _ = _
        rw [storeStateData, hcsto]
        rfl
      exact ⟨_, hexec, hdata ▸ hgiven⟩
    case page =>
      obtain ⟨hexec, hgiven⟩ := exec_ask_holder (c := .page (addrByte a) (addrByte o) k) hr h rfl
      obtain ⟨-, -, hcsto⟩ := hreads (0x80 + k.setWidth 8)
      obtain ⟨hanswer, hne⟩ := answerFor_page k (lifeDelivered ⟨addrByte a, addrByte o, .ask (0x80 + k.setWidth 8)⟩ a s)
      refine ⟨_, hexec, ?_⟩
      rw [hanswer, if_neg hne, pageAnswer, hcsto, Csto.burning] at hgiven
      split
      next hb => rwa [if_pos hb] at hgiven
      next hb => rwa [if_neg hb] at hgiven
    case unknown =>
      obtain ⟨hexec, hgiven⟩ := exec_ask_holder (c := .unknownSelector (addrByte a) (addrByte o) sel) hr h rfl
      obtain ⟨hanswer, hne⟩ := answerFor_unknown hsel hpage (lifeDelivered ⟨addrByte a, addrByte o, .ask sel⟩ a s)
      rw [hanswer, if_neg hne] at hgiven
      exact ⟨_, hexec, hgiven⟩

end Sys2Proof.Machine
end

section
/-! SUPPORT. The station's own ASK, STAKE and MUSTER at their completion: O25. -/

namespace Sys2Proof.Machine

/-- An own main part as sent to its end is the one that completes. -/
theorem Slc.ownFrame_of {l : Slc} {f : Frame} (hp : l.phase = .main) (hm : l.mark = .asSent) (hx : l.tx = some (.main f)) :
    l.ownFrame f.body.kind = some f := by simp [Slc.ownFrame, hx, hp, hm]

/-- What the completion leaves before its owner takes it: the window open, nothing being sent, the counts fallen. -/
theorem mainCompleted_signalling (k : Kind) (f : Frame) (s : State) :
    WindowOpened f true (mainCompleted k f s) ∧ (mainCompleted k f s).slc.tx = none ∧
      (mainCompleted k f s).fc = { s.fc with tec := s.fc.tec - 1, recCount := s.fc.recCount - 1 } ∧
      OnlyChanges [.slc, .fc] s (mainCompleted k f s) := by
  refine ⟨⟨rfl, rfl⟩, ?_, rfl, fun b hb => by cases b <;> simp_all [SameBlock, mainCompleted]⟩
  change ((s.slc.release .none).completeSlot k).tx = none
  rw [Slc.completeSlot_fields]
  rfl

/-- A completion whose owner leaves the signalling and the counts: what remains of it in all three kinds (R63, R72, R147). -/
theorem ownComplete_completed {s : State} {f : Frame} {h : Frame → State → State} {bs : List Block} (hp : s.slc.phase = .main)
    (hm : s.slc.mark = .asSent) (hlink : s.fc.link = .active) (hx : s.slc.tx = some (.main f)) (hslc : ∀ x, (h f x).slc = x.slc)
    (hfc : ∀ x, (h f x).fc = x.fc) (hchanges : ∀ x, OnlyChanges bs x (h f x)) :
    ownComplete f.body.kind h s = handEvents 0 (h f (mainCompleted f.body.kind f s)) ∧
      WindowOpened f true (ownComplete f.body.kind h s) ∧ (ownComplete f.body.kind h s).slc.tx = none ∧
      (ownComplete f.body.kind h s).fc = { s.fc with tec := s.fc.tec - 1, recCount := s.fc.recCount - 1 } ∧
      OnlyChanges (.slc :: .fc :: .evu :: bs) s (ownComplete f.body.kind h s) := by
  have heq := ownComplete_active (h := h) (Slc.ownFrame_of hp hm hx) hlink hfc
  obtain ⟨hwindow, htx, hcounts, hmoved⟩ := mainCompleted_signalling f.body.kind f s
  have hevents (y : State) : OnlyChanges [.evu] y (handEvents 0 y) := fun b hb => by cases b <;> simp_all [SameBlock]
  rw [heq]
  refine ⟨rfl, ?_, ?_, ?_, ?_⟩
  · rw [WindowOpened, handEvents_slc, hslc]
    exact hwindow
  · rw [handEvents_slc, hslc, htx]
  · rw [← hcounts, ← hfc (mainCompleted f.body.kind f s)]
    simp
  · exact ((hmoved.mono (by simp)).trans ((hchanges _).mono fun b hb => by simp [hb])).trans ((hevents _).mono (by simp))

/-- Settles O25: the three kinds complete alike; of an ASK the peer table takes the outcome awaited too (R121). -/
theorem ownRequestsComplete : Obligations.OwnRequestsComplete := by
  unfold Obligations.OwnRequestsComplete
  refine fun s src tgt hlive hp hm hlink => ⟨fun sel hx => ?ask, fun uid mode hx => ?stake, fun start hx => ?muster⟩
  case ask =>
    obtain ⟨heq, hwindow, htx, hfc, hchanges⟩ :=
      ownComplete_completed (h := fun _ => askCompleted) (bs := [.ptab]) hp hm hlink
      hx (fun _ => rfl) (fun _ => rfl) fun x b hb => by cases b <;> simp_all [SameBlock]
    refine ⟨_, whenLive_of_live hlive, hwindow, htx, ?_, ?_, hfc, ?_, ?_, ?_, hchanges.mono (by simp)⟩
    all_goals exact heq ▸ rfl
  case stake =>
    obtain ⟨heq, hwindow, htx, hfc, hchanges⟩ := ownComplete_completed (h := fun _ x => x) (bs := []) hp hm hlink hx
      (fun _ => rfl) (fun _ => rfl) fun x b hb => by cases b <;> rfl
    refine ⟨_, whenLive_of_live hlive, hwindow, htx, ?_, hfc, ?_, ?_, ?_, hchanges.mono (by simp)⟩
    all_goals exact heq ▸ rfl
  case muster =>
    obtain ⟨heq, hwindow, htx, hfc, hchanges⟩ := ownComplete_completed (h := fun _ x => x) (bs := []) hp hm hlink hx
      (fun _ => rfl) (fun _ => rfl) fun x b hb => by cases b <;> rfl
    refine ⟨_, whenLive_of_live hlive, hwindow, htx, ?_, hfc, ?_, ?_, ?_, hchanges.mono (by simp)⟩
    all_goals exact heq ▸ rfl

end Sys2Proof.Machine
end

section
/-! SUPPORT. MUSTER and FIXTURE main parts of other stations: the sign of life that each is, and the reply that it draws:
O28, O31. -/

namespace Sys2Proof.Machine

/-! ### A main part that is a sign of life, and its handling -/

/-- MUSTER, ASK and FIXTURE of an address are delivered as its sign of life, and then handled (R80, R83, R87, R165). -/
theorem frameReceived_life {f : Frame} {h : LinkState → State → State} {s : State} {a : Addr} (hr : s.receiving)
    (hf : f.malformed = false) (hl : s.csto.loaded.isSome) (hsrc : f.src = addrByte a)
    (hk : f.body.kind ≠ .notice ∧ f.body.kind ≠ .stake) :
    frameReceived f h s = linkHandOff s.fc.link (h s.fc.link (lifeDelivered f a s)) := by
  have hd : deliver f (receiveMain f s) = lifeDelivered f a s := by
    have hl' : (receiveMain f s).csto.loaded.isSome := by simpa using hl
    obtain ⟨hnotice, hstake⟩ := hk
    rw [deliver, if_pos hl', deliverToTable, lifeDelivered, hsrc]
    cases hb : f.body with
    | ask | muster | fixture => simp [signOfLife]
    | notice => simp [hb, Body.kind] at hnotice
    | stake => simp [hb, Body.kind] at hstake
  rw [frameReceived_eq hr hf hl, hd]

/-- At a holder in ACTIVE the link state stays, so that the handling is followed by events alone. -/
theorem linkHandOff_holder {s x : State} (hlink : s.fc.link = .active) (h : x.fc = s.fc.validMain false) :
    linkHandOff s.fc.link x = handEvents 0 x :=
  linkHandOff_same (by rw [h, Fc.validMain_active hlink])

/-- A reply started, with the store's state as it is decided, and events handed on. -/
theorem replied_onlyChanges (x : State) (c : Csto) (l : Slc) :
    OnlyChanges [.slc, .fc, .ptab, .sid, .csto, .evu] x (handEvents 0 ((x.setCsto c).setSlc l)) := fun b hb => by
  cases b <;> simp_all [SameBlock]

/-- A reply block has been started on the sign of life at a holder in ACTIVE, with the store's state and the muster reply as the
handling leaves them. -/
theorem lifeDelivered_replied {s : State} {o : Addr} (f : Frame) (a : Addr) (hst : s.sid.st = .run) (ho : s.sid.own = some o)
    (hlink : s.fc.link = .active) {x : Sending} {l : Slc} (c : Csto) (hphase : l.phase = .window)
    (hwindow : l.window = (lifeDelivered f a s).slc.window) {u : State}
    (hu : u = handEvents 0 (((lifeDelivered f a s).setCsto c).setSlc (l.start x))) :
    WindowOpened f false u ∧ u.slc = l.start x ∧ u.ptab.slots.get a = (s.ptab.slots.get a).life ∧
      (∀ b : Addr, b ≠ a → u.ptab.slots.get b = s.ptab.slots.get b) ∧
      u.fc = { s.fc with recCount := s.fc.recCount - 1 } ∧ TestedForDuplicate (addrByte a) o s u ∧ u.csto = c ∧
      OnlyChanges [.slc, .fc, .ptab, .sid, .csto, .evu] s u := by
  obtain ⟨hself, hothers⟩ := lifeDelivered_slots f a s
  have hopened := lifeDelivered_slc f a s
  have hchanges := lifeDelivered_onlyChanges f a s
  have hfc := (lifeDelivered_fc f a s).trans (Fc.validMain_active hlink)
  have htested := lifeDelivered_tested f (a := a) hst ho
  generalize lifeDelivered f a s = y at *
  have hopen : l.window = (s.slc.openWindow f false).window := by rw [hwindow, hopened]
  subst hu
  exact ⟨⟨hphase, hopen⟩, rfl, hself, hothers, hfc, htested, rfl,
    (hchanges.mono (by simp)).trans (replied_onlyChanges y c _)⟩

/-! ### MUSTER (R80) -/

theorem muster_wellFormed (a : Addr) (start : Byte) : (⟨addrByte a, 62, .muster start⟩ : Frame).malformed = false := by
  simp [Frame.malformed, Body.kind, Body.payload, Kind.lengthOk, Kind.sourceOk, Kind.targetOk, a.isLt]

theorem exec_musterReceived {s : State} (hr : s.receiving) (hl : s.csto.loaded.isSome) (a : Addr) (start : Byte) :
    exec (.musterReceived (addrByte a) start) s = .next (linkHandOff s.fc.link
      (musterReplyStart start s.fc.link (lifeDelivered ⟨addrByte a, 62, .muster start⟩ a s))) :=
  (whenLive_of_live hr.1).trans (congrArg Host.Outcome.next
    (frameReceived_life hr (muster_wellFormed a start) hl rfl ⟨by simp [Body.kind], by simp [Body.kind]⟩))

/-- Outside RUN and ACTIVE, and below the start address, a MUSTER draws no byte. -/
theorem musterReplyStart_none {start : Byte} {link : LinkState} {s : State}
    (h : s.sid.st ≠ .run ∨ link ≠ .active ∨ ∀ o, s.sid.own = some o → o.val < start.toNat) :
    musterReplyStart start link s = s := by
  unfold musterReplyStart
  split
  next o ho =>
    rw [if_neg]
    simp only [Bool.and_eq_true, decide_eq_true_eq, mayReply_iff]
    rintro ⟨⟨hlink, hst⟩, hstart⟩
    rcases h with h | h | h
    · exact h hst
    · exact h hlink
    · exact absurd hstart (Nat.not_le.mpr (h o ho))
  next => rfl

theorem musterReplyStart_holder {start : Byte} {o : Addr} {s : State} (hst : s.sid.st = .run) (ho : s.sid.own = some o)
    (h : start.toNat ≤ o.val) : musterReplyStart start .active s = s.setSlc (s.slc.musterTry o) := by
  simp [musterReplyStart, mayReply, hst, ho, h]

/-- Settles O28: the sign of life in every case, and at a holder in ACTIVE from the start address on the own byte. -/
theorem musterDrawsTheOwnByte : Obligations.MusterDrawsTheOwnByte := by
  unfold Obligations.MusterDrawsTheOwnByte
  refine ⟨fun s a start hr hl hst => ?alone, fun s a o start hr hst ho hl => ?holder⟩
  case alone =>
    obtain ⟨hst', -, -⟩ := lifeDelivered_identity ⟨addrByte a, 62, .muster start⟩ a s
    refine ⟨_, exec_musterReceived hr hl a start, ?_⟩
    rw [musterReplyStart_none (.inl (by rwa [hst']))]
    exact lifeDelivered_heardAlone _
  case holder =>
    obtain ⟨hst', ho', -⟩ := lifeDelivered_identity ⟨addrByte a, 62, .muster start⟩ a s
    refine ⟨_, exec_musterReceived hr hl a start, ?_⟩
    by_cases hreply : s.fc.link = .active ∧ start.toNat ≤ o.val
    · obtain ⟨hlink, hstart⟩ := hreply
      have hslc := lifeDelivered_slc ⟨addrByte a, 62, .muster start⟩ a s
      have htry := musterReplyStart_holder (hst'.trans hst) (ho'.trans ho) hstart
      rw [linkHandOff_holder hlink (by rw [hlink, htry]; simpa using lifeDelivered_fc _ a s), hlink, htry]
      obtain ⟨hwindow, hsent, hself, hothers, hfc, htested, -, hchanges⟩ :=
        lifeDelivered_replied ⟨addrByte a, 62, .muster start⟩ a hst ho hlink (x := .muster (addrByte o))
          (l := { (lifeDelivered ⟨addrByte a, 62, .muster start⟩ a s).slc with musterReply := .waiting })
          (lifeDelivered ⟨addrByte a, 62, .muster start⟩ a s).csto (by rw [hslc]; rfl) rfl rfl
      refine ⟨hwindow, hself, hothers, fun _ => ⟨rfl, rfl⟩, fun h => ?_, ?_, htested, ?_⟩
      · exact absurd (h.resolve_left (not_not.mpr rfl)) (Nat.not_lt.mpr hstart)
      · exact countsFall_of_fc (hfc.trans (Fc.validMain_active hlink).symm)
      · intro b hb
        by_cases hc : b = .csto
        · subst hc
          exact (lifeDelivered_onlyChanges _ a s) .csto (by simp)
        · exact hchanges b fun h => hb (by simpa [hc] using h)
    · have hnone := musterReplyStart_none (start := start) (link := s.fc.link)
        (s := lifeDelivered ⟨addrByte a, 62, .muster start⟩ a s) (.inr (by
          rw [ho']
          refine (not_and_or.mp hreply).imp id fun h o' e => ?_
          rw [← Option.some.inj (ho.symm.trans e)]
          exact Nat.not_le.mp h))
      rw [hnone]
      obtain ⟨hwindow, ⟨htx, -, hreply', hcounts, -, -, -, htested, hchanges⟩, hself, hothers⟩ :=
        lifeDelivered_heardAlone ⟨addrByte a, 62, .muster start⟩ (a := a) (s := s)
      exact ⟨hwindow, hself, hothers, fun h => absurd h hreply, fun _ => ⟨htx, hreply'⟩, hcounts, htested o hst ho,
        hchanges⟩

/-! ### FIXTURE commands at the store (R165 to R170) -/

theorem fixture_wellFormed (a : Addr) {tgt : Byte} (code : Byte) {rest : List Byte} (h : tgt.toNat < 48)
    (hlen : rest.length ≤ 9) :
    (⟨addrByte a, tgt, .fixture (code :: rest)⟩ : Frame).malformed = false := by
  simp [Frame.malformed, Body.kind, Body.payload, Kind.lengthOk, Kind.sourceOk, Kind.targetOk, h, a.isLt]
  omega

/-- The code is one of the four commands. -/
def IsFixtureCode (code : Byte) : Prop := code = 0x01 ∨ code = 0x02 ∨ code = 0x03 ∨ code = 0x04

theorem IsFixtureCode.known {code : Byte} (h : IsFixtureCode code) : (1 ≤ code.toNat && code.toNat ≤ 4 : Bool) = true := by
  rcases h with rfl | rfl | rfl | rfl <;> rfl

theorem Csto.fixture_refused {c : Csto} (h : c.fixtureEnable = false) (code : Byte) (args : List Byte) :
    c.fixture code args = (c, .refused) := by simp [Csto.fixture, h]

theorem Csto.fixture_unknown {c : Csto} {code : Byte} (h : c.fixtureEnable = true) (hcode : code = 0 ∨ 4 < code.toNat)
    (args : List Byte) : c.fixture code args = (c, .unknown) := by
  have hout : (1 ≤ code.toNat && code.toNat ≤ 4 : Bool) = false := by
    rcases hcode with rfl | hcode
    · rfl
    · simp; omega
  rw [Csto.fixture, if_neg (by simp [h]), if_pos (by simp only [hout, Bool.not_false])]

theorem Csto.fixture_busy {c : Csto} {code : Byte} (h : c.fixtureEnable = true) (hcode : IsFixtureCode code)
    (hburn : c.burn.isSome) (args : List Byte) : c.fixture code args = (c, .busy) := by
  rw [Csto.fixture, if_neg (by simp [h]), if_neg (by simp only [hcode.known]; decide),
    if_pos (by simpa [Csto.burning] using hburn)]

/-- Past the shared checks the code's own meaning decides. -/
theorem Csto.fixture_ready {c : Csto} {code : Byte} (h : c.fixtureEnable = true) (hcode : IsFixtureCode code)
    (hburn : c.burn = none) (args : List Byte) :
    c.fixture code args =
      if code = 0x01 then ({ c with latch := true }, .done)
      else if code = 0x04 then ({ c with latch := false }, .done)
      else if code = 0x02 then c.burnCommand args
      else c.lockCommand args := by
  rw [Csto.fixture, if_neg (by simp [h]), if_neg (by simp only [hcode.known]; decide), if_neg (by simp [Csto.burning, hburn])]

/-- ARM and DISARM set and clear the latch, BURN and LOCK pass their own checks (R166, R167, R169). -/
theorem Csto.fixture_commands {c : Csto} (h : c.fixtureEnable = true) (hburn : c.burn = none) (args : List Byte) :
    c.fixture 0x01 args = ({ c with latch := true }, .done) ∧ c.fixture 0x04 args = ({ c with latch := false }, .done) ∧
      c.fixture 0x02 args = c.burnCommand args ∧ c.fixture 0x03 args = c.lockCommand args := by
  refine ⟨?_, ?_, ?_, ?_⟩
  all_goals exact Csto.fixture_ready h (by simp [IsFixtureCode]) hburn args

theorem Csto.commands_noLatch {c : Csto} (hlatch : c.latch = false) (args : List Byte) :
    c.burnCommand args = (c, .noLatch) ∧ c.lockCommand args = (c, .noLatch) := by
  simp [Csto.burnCommand, Csto.lockCommand, hlatch]

theorem Csto.burnCommand_short {c : Csto} (hlatch : c.latch = true) {args : List Byte} (h : args.length ≤ 1) :
    c.burnCommand args = (c, .range) := by
  match args, h with
  | [], _ => simp [Csto.burnCommand, hlatch]
  | [off], _ => simp [Csto.burnCommand, hlatch]

/-- BURN of 1 to 8 bytes with the latch set: the range, and then the locks (R167). -/
theorem Csto.burnCommand_data {c : Csto} (hlatch : c.latch = true) (off : Byte) {data : List Byte}
    (hlo : 1 ≤ data.length) (hhi : data.length ≤ 8) :
    c.burnCommand (off :: data) =
      if 127 < off.toNat + data.length then (c, .range)
      else if ∃ k, k < data.length ∧ lockedByte (c.array.read 127) (off.toNat + k) = true then (c, .locked)
      else ({ c with burn := some (.bytes off.toNat data 0) }, .accepted) := by
  simp [Csto.burnCommand, hlatch, Nat.one_le_iff_ne_zero.mp hlo, hhi]

/-- The marks that LOCK takes are those of bits 0 to 2 (R169). -/
theorem marks_outside_iff : ∀ marks : Byte, (marks = 0 || marks &&& 0xF8 != 0) = true ↔ marks = 0 ∨ 8 ≤ marks.toNat := by
  decide

theorem Csto.lockCommand_short {c : Csto} (hlatch : c.latch = true) : c.lockCommand [] = (c, .range) := by
  simp [Csto.lockCommand, hlatch]

theorem Csto.lockCommand_marks {c : Csto} (hlatch : c.latch = true) (marks : Byte) (more : List Byte) :
    c.lockCommand (marks :: more) =
      if marks = 0 ∨ 8 ≤ marks.toNat then (c, .range)
      else ({ c with burn := some (.lock marks (c.array.read 127)) }, .accepted) := by
  simp only [Csto.lockCommand, hlatch, marks_outside_iff]
  rfl

/-! ### FIXTURE main parts -/

/-- The commands that bring a FIXTURE in are one command each code. -/
theorem exec_fixture {c : Instr} {src tgt code : Byte} {rest : List Byte} {s : State}
    (hc : mainPart c = some ⟨src, tgt, .fixture (code :: rest)⟩) (hlive : s.live) :
    exec c s = .next (fixtureReceived src tgt code rest s) := by
  cases c with
  | arm | disarm | burn | lock | unknownCommand =>
    obtain ⟨rfl, rfl, hb⟩ := Frame.mk.inj (Option.some.inj hc)
    obtain ⟨rfl, rfl⟩ := List.cons.inj (Body.fixture.inj hb)
    exact whenLive_of_live hlive
  | noticeReceived | musterReceived | stakeReceived | capability | status | statusClear | identity | gains | targets
  | storeState | page | unknownSelector =>
    obtain ⟨-, -, hb⟩ := Frame.mk.inj (Option.some.inj hc)
    cases hb
  | _ => cases hc

theorem fixtureReceived_eq {s : State} (hr : s.receiving) (hl : s.csto.loaded.isSome) (a : Addr) {tgt : Byte} (code : Byte)
    {rest : List Byte} (h : tgt.toNat < 48) (hlen : rest.length ≤ 9) :
    fixtureReceived (addrByte a) tgt code rest s = linkHandOff s.fc.link
      (fixtureAtEob tgt code rest s.fc.link (lifeDelivered ⟨addrByte a, tgt, .fixture (code :: rest)⟩ a s)) :=
  frameReceived_life hr (fixture_wellFormed a code h hlen) hl rfl ⟨by simp [Body.kind], by simp [Body.kind]⟩

theorem fixtureAtEob_none {tgt code : Byte} {args : List Byte} {link : LinkState} {s : State}
    (h : ∀ o, s.sid.own = some o → tgt ≠ addrByte o) : fixtureAtEob tgt code args link s = s := by
  unfold fixtureAtEob
  split
  next o ho => rw [if_neg (h o ho)]
  next => rfl

/-- At its target the store decides; where the station may reply the status byte goes out (R165). -/
theorem fixtureAtEob_target {o : Addr} {s : State} (ho : s.sid.own = some o) (hst : s.sid.st = .run) (code : Byte)
    (args : List Byte) (link : LinkState) :
    fixtureAtEob (addrByte o) code args link s =
      if link = .active then
        (s.setCsto (s.csto.fixture code args).1).setSlc (s.slc.start (.status (s.csto.fixture code args).2.code))
      else s.setCsto (s.csto.fixture code args).1 := by
  simp [fixtureAtEob, ho, mayReply, hst]

/-- A FIXTURE command of address `a` at the holder of `o`: the store's decision, and its status sent (R165). -/
theorem exec_fixture_holder {c : Instr} {s : State} {a o : Addr} {code : Byte} {rest : List Byte} {r : Csto × FixtureStatus}
    (hr : s.receiving) (h : s.holder o) (hlen : rest.length ≤ 9)
    (hc : mainPart c = some ⟨addrByte a, addrByte o, .fixture (code :: rest)⟩) (hdecided : s.csto.fixture code rest = r) :
    ∃ u, exec c s = .next u ∧ FixtureAnswered a o r.2.code r.1 s u := by
  obtain ⟨hst, ho, hlink, hl⟩ := h
  obtain ⟨hst', ho', -⟩ := lifeDelivered_identity ⟨addrByte a, addrByte o, .fixture (code :: rest)⟩ a s
  obtain ⟨-, -, hcsto⟩ := lifeDelivered_reads ⟨addrByte a, addrByte o, .fixture (code :: rest)⟩ a s
  have hslc := lifeDelivered_slc ⟨addrByte a, addrByte o, .fixture (code :: rest)⟩ a s
  have htarget := fixtureAtEob_target (ho'.trans ho) (hst'.trans hst) code rest .active
  rw [if_pos rfl, hcsto, hdecided] at htarget
  obtain ⟨-, hsent, hself, hothers, hfc, htested, hstore, hchanges⟩ :=
    lifeDelivered_replied ⟨addrByte a, addrByte o, .fixture (code :: rest)⟩ a hst ho hlink (x := .status r.2.code)
      (l := (lifeDelivered ⟨addrByte a, addrByte o, .fixture (code :: rest)⟩ a s).slc) r.1 (by rw [hslc]; rfl) rfl rfl
  refine ⟨_, exec_fixture hc hr.1, ?_⟩
  rw [fixtureReceived_eq hr hl a code (by simp [o.isLt]) hlen,
    linkHandOff_holder hlink (by rw [hlink, htarget]; simpa using lifeDelivered_fc _ a s), hlink, htarget]
  exact ⟨hstore, rfl, hself, hothers, hfc, htested, hchanges⟩

theorem onlyChanges_setCsto (x : State) (c : Csto) : OnlyChanges [.csto] x (x.setCsto c) := fun b hb => by
  cases b <;> simp_all [SameBlock]

/-- At a station in RUN that is not ACTIVE the store decides alike, and nothing is sent (R152, R165). -/
theorem exec_fixture_silent {c : Instr} {s : State} {a o : Addr} {code : Byte} {rest : List Byte} (hr : s.receiving)
    (hst : s.sid.st = .run) (ho : s.sid.own = some o) (hl : s.csto.loaded.isSome) (hlink : s.fc.link ≠ .active)
    (hlen : rest.length ≤ 9) (hc : mainPart c = some ⟨addrByte a, addrByte o, .fixture (code :: rest)⟩) :
    ∃ u, exec c s = .next u ∧ u.csto = (s.csto.fixture code rest).1 ∧ u.slc.tx = s.slc.tx ∧
      u.ptab.slots.get a = (s.ptab.slots.get a).life ∧ CountsFall s u ∧ TestedForDuplicate (addrByte a) o s u ∧
      OnlyChanges [.slc, .fc, .ptab, .sid, .csto, .evu] s u := by
  obtain ⟨hst', ho', -⟩ := lifeDelivered_identity ⟨addrByte a, addrByte o, .fixture (code :: rest)⟩ a s
  obtain ⟨-, -, hcsto⟩ := lifeDelivered_reads ⟨addrByte a, addrByte o, .fixture (code :: rest)⟩ a s
  have htarget := fixtureAtEob_target (ho'.trans ho) (hst'.trans hst) code rest s.fc.link
  rw [if_neg hlink, hcsto] at htarget
  refine ⟨_, exec_fixture hc hr.1, ?_⟩
  rw [fixtureReceived_eq hr hl a code (by simp [o.isLt]) hlen, htarget]
  have hslc := lifeDelivered_slc ⟨addrByte a, addrByte o, .fixture (code :: rest)⟩ a s
  have hfc := lifeDelivered_fc ⟨addrByte a, addrByte o, .fixture (code :: rest)⟩ a s
  have htested := lifeDelivered_tested ⟨addrByte a, addrByte o, .fixture (code :: rest)⟩ (a := a) hst ho
  obtain ⟨hself, -⟩ := lifeDelivered_slots ⟨addrByte a, addrByte o, .fixture (code :: rest)⟩ a s
  have hchanges := lifeDelivered_onlyChanges ⟨addrByte a, addrByte o, .fixture (code :: rest)⟩ a s
  generalize lifeDelivered ⟨addrByte a, addrByte o, .fixture (code :: rest)⟩ a s = x at *
  obtain ⟨hkept, -⟩ := linkHandOff_keeps (s := x.setCsto (s.csto.fixture code rest).1) (.inl hlink)
  have hstored := onlyChanges_setCsto x (s.csto.fixture code rest).1
  refine ⟨by simp, ?_, by rw [linkHandOff_slots]; exact hself, countsFall_of_fc (by simpa using hfc), ?_,
    ((hchanges.mono (by simp)).trans (hstored.mono (by simp))).trans ((linkHandOff_onlyChanges _ _).mono (by simp))⟩
  · rw [hkept, State.setCsto_slc, hslc]
    rfl
  · have hnot : (x.setCsto (s.csto.fixture code rest).1).sid.st ≠ .claiming := by simp [hst', hst]
    rw [TestedForDuplicate, linkHandOff_sid_notClaiming hnot]
    exact htested

/-- Settles O31: the shared checks and the commands' own, each as a decision of the store (`Csto.fixture`), and the two ways in
which it is given. -/
theorem fixtureCommandsAreDecided : Obligations.FixtureCommandsAreDecided := by
  unfold Obligations.FixtureCommandsAreDecided
  refine ⟨fun s a tgt code rest c hr hl hc htgt hlen hnone => ?others,
    fun s a o rest hr h hlen => ⟨fun c hc => ⟨fun hfe => ?refused, fun hfe hburn => ?busy⟩, fun code hcode => ?unknown,
      fun hfe hburn => ⟨?arm, ?disarm, fun hlatch => ⟨?burnNoLatch, ?lockNoLatch⟩, fun hlatch hshort => ?burnShort,
        fun off data hlatch hrest hlo => ?burnData, fun hlatch hrest => ?lockShort,
        fun marks more hlatch hrest => ?lockMarks⟩⟩,
    fun s a o code rest c hr hst ho hl hlink hlen hc => ?silent⟩
  case others =>
    obtain ⟨-, hown, -⟩ := lifeDelivered_identity ⟨addrByte a, tgt, .fixture (code :: rest)⟩ a s
    refine ⟨_, exec_fixture hc hr.1, ?_⟩
    rw [fixtureReceived_eq hr hl a code htgt hlen, fixtureAtEob_none (by rwa [hown])]
    exact lifeDelivered_heardAlone _
  case refused =>
    rcases hc with rfl | rfl | rfl | rfl
    all_goals exact exec_fixture_holder hr h hlen rfl (Csto.fixture_refused hfe _ _)
  case busy =>
    rcases hc with rfl | rfl | rfl | rfl
    all_goals exact exec_fixture_holder hr h hlen rfl (Csto.fixture_busy hfe (by simp [IsFixtureCode]) hburn _)
  case unknown =>
    cases hfe : s.csto.fixtureEnable with
    | true => exact exec_fixture_holder hr h hlen rfl (Csto.fixture_unknown hfe hcode _)
    | false => exact exec_fixture_holder hr h hlen rfl (Csto.fixture_refused hfe _ _)
  case silent =>
    obtain ⟨u, hu, hstore, hrest⟩ := exec_fixture_silent hr hst ho hl hlink hlen hc
    obtain ⟨v, hv, hdecided, -⟩ :=
      exec_fixture_holder (s := s.setFc { s.fc with link := .active }) hr ⟨hst, ho, rfl, hl⟩ hlen hc rfl
    exact ⟨u, v, hu, hv, hstore.trans hdecided.symm, hrest⟩
  all_goals obtain ⟨harm, hdisarm, hburn, hlock⟩ := Csto.fixture_commands hfe hburn rest
  case arm => exact exec_fixture_holder hr h hlen rfl harm
  case disarm => exact exec_fixture_holder hr h hlen rfl hdisarm
  case burnNoLatch =>
    obtain ⟨hburnCommand, -⟩ := Csto.commands_noLatch hlatch rest
    exact exec_fixture_holder hr h hlen rfl (hburn.trans hburnCommand)
  case lockNoLatch =>
    obtain ⟨-, hlockCommand⟩ := Csto.commands_noLatch hlatch rest
    exact exec_fixture_holder hr h hlen rfl (hlock.trans hlockCommand)
  case burnShort => exact exec_fixture_holder hr h hlen rfl (hburn.trans (Csto.burnCommand_short hlatch hshort))
  case burnData =>
    obtain ⟨u, hu, hgiven⟩ := exec_fixture_holder (c := .burn (addrByte a) (addrByte o) rest) hr h hlen rfl hburn
    refine ⟨u, hu, ?_⟩
    subst hrest
    rw [Csto.burnCommand_data hlatch off hlo (Nat.le_of_succ_le_succ hlen)] at hgiven
    split_ifs at hgiven ⊢
    all_goals exact hgiven
  case lockShort =>
    subst hrest
    exact exec_fixture_holder hr h hlen rfl (hlock.trans (Csto.lockCommand_short hlatch))
  case lockMarks =>
    obtain ⟨u, hu, hgiven⟩ := exec_fixture_holder (c := .lock (addrByte a) (addrByte o) rest) hr h hlen rfl hlock
    refine ⟨u, hu, ?_⟩
    subst hrest
    rw [Csto.lockCommand_marks hlatch] at hgiven
    split_ifs at hgiven ⊢
    all_goals exact hgiven

end Sys2Proof.Machine
end

section
/-! SUPPORT. The own address yielded, and the STAKE of another station at its EOB: O29. -/

namespace Sys2Proof.Machine

/-! ### What a station that leaves RUN keeps of its STAKE slot -/

/-- An end without completion leaves a slot of another kind, and one whose frame is not withdrawn (R72, R73). -/
theorem SlotEnded.kept {α : Type} {k : Kind} {x : Sending} {sl sl' : OutSlot α} (h : SlotEnded k x sl sl')
    (hk : x.carries k = false ∨ sl.withdrawn = false) : sl' = sl := by
  have hcond : (x.carries k && sl.withdrawn) = false := Bool.and_eq_false_iff.mpr hk
  rw [SlotEnded, hcond] at h
  simpa using h

/-- So does a transmission that is cut off, to the STAKE slot. -/
theorem Slc.stopped_stake {l : Slc} (m : OwnMark) (h : l.sendingMain = false ∨ l.stake.withdrawn = false) :
    (if l.tx.isSome then l.stop m else l).stake = l.stake := by
  cases hx : l.tx with
  | none => simp
  | some x =>
    obtain ⟨hended, -⟩ := Slc.stop_slots m hx
    refine hended.kept (h.imp_left fun h => ?_)
    cases x with
    | main f => exact absurd rfl (Slc.not_main_of_sendingMain hx h f)
    | _ => rfl

theorem Slc.leaveRun_fields (l : Slc) :
    l.leaveRun.tx = none ∧ l.leaveRun.reportTimer = none ∧ l.leaveRun.notice = .empty ∧ l.leaveRun.muster = .empty ∧
      l.leaveRun.musterRun = false ∧ l.leaveRun.deferred = false ∧ l.leaveRun.phase = l.phase ∧
      l.leaveRun.window = l.window := by
  obtain ⟨hphase, -⟩ := l.cutOff_phase
  refine ⟨l.cutOff_tx, rfl, rfl, rfl, rfl, rfl, hphase, ?_⟩
  change l.cutOff.window = l.window
  unfold Slc.cutOff
  split
  · rw [Slc.stop_fields]; rfl
  · rfl

/-! ### The own address yielded (R101) -/

/-- The state in which the own address `a` has been yielded, before the choice of R101. -/
def yielded (a : Addr) (s : State) : State :=
  changeIdentity .claiming (withdrawStake (handEvents evAddrYield
    ((s.setSid { s.sid with own := none, reassert := false, attempts := 0, candidate := none }).setPtab
      (s.ptab.update a fun _ => .empty))))

theorem yielded_sid (a : Addr) (s : State) : (yielded a s).sid =
    { s.sid with st := .claiming, own := none, reassert := false, attempts := 0, candidate := none } := by
  rw [yielded, changeIdentity_sid]
  rfl

/-- In RUN the signalling loses what only RUN has, and its STAKE is withdrawn (R73, R74, R101). -/
theorem yielded_slc (a : Addr) {s : State} (h : s.sid.st = .run) :
    (yielded a s).slc = { s.slc.withdrawStake.leaveRun with ask := (yielded a s).slc.ask } := by
  simp only [yielded, changeIdentity, handEvents_frame]
  rw [askUpdate_slc]
  simp [h, withdrawStake]

/-- ADDR_YIELD has arisen (R101, R174). -/
theorem yielded_latched (a : Addr) (s : State) : (yielded a s).evu.latched.getLsbD 13 = true := by
  simp only [yielded, changeIdentity, handEvents_evu, askUpdate_frame]
  exact (Evu.take_keeps _ _ _ 13).1 (Evu.take_pulses (by decide)).1

theorem yieldAddress_eq (a : Addr) (s : State) : yieldAddress a s =
    if (yielded a s).sid.decision = .yielding then
      (yielded a s).setSid { (yielded a s).sid with search := some (addrAfter a 1, false) }
    else chooseCandidate (addrAfter a 1) false (yielded a s) := rfl

/-- At the EOB the choice waits for EOF (R99). -/
theorem yieldAddress_waits {a : Addr} {s : State} (h : s.sid.decision = .yielding) :
    yieldAddress a s = (yielded a s).setSid { (yielded a s).sid with search := some (addrAfter a 1, false) } := by
  rw [yieldAddress_eq, if_pos (by rw [yielded_sid]; exact h)]

/-- At EOF it is made, over the 47 others (R93, R101). -/
theorem yieldAddress_chooses {a : Addr} {s : State} (h : s.sid.decision ≠ .yielding) :
    yieldAddress a s = chooseCandidate (addrAfter a 1) false (yielded a s) := by
  rw [yieldAddress_eq, if_neg (by rw [yielded_sid]; exact h)]

/-! ### Another station's STAKE at its EOB -/

theorem stake_wellFormed {src : Byte} (c : Addr) (uid : BitVec 64) (mode : Byte) (h : src = 63 ∨ src.toNat < 48) :
    (⟨src, addrByte c, .stake uid mode⟩ : Frame).malformed = false := by
  have hsource : Kind.stake.sourceOk src = true := by
    rcases h with rfl | h
    · rfl
    · simp [Kind.sourceOk, h]
  simp [Frame.malformed, Body.kind, Body.payload, Kind.lengthOk, Kind.targetOk, bytes64, c.isLt, hsource]

/-- The state in which another station's STAKE has been delivered: it is no sign of life (R87, R103). -/
def stakeDelivered (f : Frame) (s : State) : State := duplicateTest f.src (receiveMain f s)

theorem exec_stakeReceived {s : State} (hr : s.receiving) (hl : s.csto.loaded.isSome) {src : Byte} (c : Addr) (uid : BitVec 64)
    (mode : Byte) (h : src = 63 ∨ src.toNat < 48) :
    exec (.stakeReceived src (addrByte c) uid mode) s = .next (linkHandOff s.fc.link
      (stakeAtEob (addrByte c) uid mode s.fc.link (stakeDelivered ⟨src, addrByte c, .stake uid mode⟩ s))) := by
  have hl' : (receiveMain ⟨src, addrByte c, .stake uid mode⟩ s).csto.loaded.isSome := by simpa using hl
  refine (whenLive_of_live hr.1).trans (congrArg Host.Outcome.next ?_)
  rw [frameReceived_eq hr (stake_wellFormed c uid mode h) hl, deliver, if_pos hl']
  rfl

section
variable (f : Frame) (s : State)

theorem stakeDelivered_ptab : (stakeDelivered f s).ptab = s.ptab := by simp [stakeDelivered]

theorem stakeDelivered_fc : (stakeDelivered f s).fc = s.fc.validMain false := by simp [stakeDelivered, receiveMain_fc]

/-- Of identity the delivery moves the re-assertion at most. -/
theorem stakeDelivered_identity : (stakeDelivered f s).sid.st = s.sid.st ∧ (stakeDelivered f s).sid.own = s.sid.own ∧
    (stakeDelivered f s).sid.uid = s.sid.uid := by
  obtain ⟨hsid, -⟩ := duplicateTest_keeps f.src (receiveMain f s)
  rw [stakeDelivered, hsid]
  simp

theorem stakeDelivered_slc : (stakeDelivered f s).slc = { s.slc.openWindow f false with
    stake := (stakeDelivered f s).slc.stake } := by
  obtain ⟨-, hslc⟩ := duplicateTest_keeps f.src (receiveMain f s)
  rw [stakeDelivered, hslc, receiveMain_slc]

theorem stakeDelivered_onlyChanges : OnlyChanges [.slc, .fc, .sid, .evu] s (stakeDelivered f s) := fun b hb => by
  cases b <;> simp_all [SameBlock, stakeDelivered]

theorem marksKept_stakeDelivered : MarksKept s (stakeDelivered f s) := by
  have hreceived : MarksKept s (receiveMain f s) := MarksKept.trans (marksKept_of_same rfl) (marksKept_handEvents 0 _)
  exact hreceived.trans (marksKept_duplicateTest f.src _)

variable {s}

/-- Outside RUN the delivery leaves identity and STAKE slot. -/
theorem stakeDelivered_notRun (h : s.sid.st ≠ .run) :
    (stakeDelivered f s).sid = s.sid ∧ (stakeDelivered f s).slc.stake = s.slc.stake := by
  rw [stakeDelivered, duplicateTest_none (.inl (by simpa using h)), receiveMain_slc]
  exact ⟨by simp, rfl⟩

theorem stakeDelivered_tested {o : Addr} (hst : s.sid.st = .run) (ho : s.sid.own = some o) :
    (stakeDelivered f s).sid = if f.src = addrByte o then { s.sid with reassert := true } else s.sid := by
  rw [stakeDelivered, duplicateTest_sid (by simpa using hst) (by simpa using ho)]
  simp

/-- The delivery alone, with the link state handed on after it, draws no reply (R87, R97, R150). -/
theorem stakeDelivered_drawsNoReply :
    WindowOpened f false (linkHandOff s.fc.link (stakeDelivered f s)) ∧
      DrawsNoReply f.src s (linkHandOff s.fc.link (stakeDelivered f s)) := by
  have hfc := stakeDelivered_fc f s
  have hlink : s.fc.link ≠ .active ∨ (stakeDelivered f s).fc.link = s.fc.link := by rw [hfc]; exact s.fc.validMain_link
  have hufc : (linkHandOff s.fc.link (stakeDelivered f s)).fc = s.fc.validMain false := by simp [hfc]
  obtain ⟨hhanded, -⟩ := linkHandOff_keeps hlink
  have hslc := stakeDelivered_slc f s
  refine ⟨?window, ?tx, ?capture, ?muster, countsFall_of_fc hufc, ?marks, fun hst hsearch => ?identity, fun hne => ?choice,
    fun o hst ho => ?tested, ?changes⟩
  case window =>
    rw [WindowOpened, hhanded, hslc]
    exact ⟨rfl, rfl⟩
  case tx => rw [hhanded, hslc]; rfl
  case capture => rw [hhanded, hslc]; rfl
  case muster => rw [hhanded, hslc]; rfl
  case marks => exact (marksKept_stakeDelivered f s).trans (marksKept_linkHandOff _ _)
  case identity =>
    obtain ⟨hsid, -⟩ := stakeDelivered_notRun f hst
    rw [linkHandOff_sid ?_, hsid]
    rw [hsid]
    refine hsearch.imp_right fun h => ?_
    rwa [hfc, ← hufc]
  case choice =>
    rw [hufc] at hne
    obtain ⟨hactive, hold⟩ := Fc.validMain_returns hne
    exact linkHandOff_waitingChoiceMade (by rwa [hfc]) hold fun hclaiming => stakeDelivered_notRun f (by simp [hclaiming])
  case tested =>
    obtain ⟨hkept, -⟩ := stakeDelivered_identity f s
    rw [TestedForDuplicate, linkHandOff_sid_notClaiming (by simp [hkept, hst]), stakeDelivered_tested f hst ho]
  case changes =>
    exact ((stakeDelivered_onlyChanges f s).mono (by simp)).trans ((linkHandOff_onlyChanges _ _).mono (by simp))

end

/-- Where the target is not held in RUN and ACTIVE the EOB decides nothing (R97, R98, R100). -/
theorem stakeAtEob_none {c : Addr} {uid : BitVec 64} {mode : Byte} {link : LinkState} {s : State}
    (h : s.sid.st ≠ .run ∨ link ≠ .active ∨ s.sid.own ≠ some c) : stakeAtEob (addrByte c) uid mode link s = s := by
  unfold stakeAtEob
  split
  next o ho =>
    rw [if_neg]
    simp only [Bool.and_eq_true, decide_eq_true_eq, mayReply_iff, addrByte_inj]
    rintro ⟨⟨hlink, hst⟩, rfl⟩
    rcases h with h | h | h
    · exact h hst
    · exact h hlink
    · exact h ho
  next => rfl

theorem stakeAtEob_holder {o : Addr} {uid : BitVec 64} {mode : Byte} {s : State} (hst : s.sid.st = .run)
    (ho : s.sid.own = some o) :
    stakeAtEob (addrByte o) uid mode .active s =
      if mode ≠ 1 ∨ s.sid.uid.toNat ≤ uid.toNat then s.setSlc (s.slc.start (.contest (addrByte o)))
      else yieldAddress o (s.setSid { s.sid with decision := .yielding }) := by
  have hmode : stakeModeOf mode = .fresh ↔ mode ≠ 1 := by simp [stakeModeOf]
  simp [stakeAtEob, mayReply, hst, ho, contests, hmode]

/-- What a yield at the EOB leaves: identity, with the choice waiting for EOF, and the STAKE slot (R73, R99, R101). -/
theorem yieldAddress_atEob (o : Addr) {y : State} (hst : y.sid.st = .run) (hd : y.sid.decision = .yielding)
    (hm : y.slc.sendingMain = false) :
    (yieldAddress o y).sid = { y.sid with
        st := .claiming, own := none, reassert := false, attempts := 0, candidate := none,
        search := some (addrAfter o 1, false) } ∧
      (yieldAddress o y).slc = { y.slc.withdrawStake.leaveRun with ask := (yieldAddress o y).slc.ask } ∧
      (yieldAddress o y).slc.stake.content = none ∧ (yieldAddress o y).evu.latched.getLsbD 13 = true := by
  have hslc := yielded_slc o hst
  have hoff : y.slc.onLine .stake = false := by
    cases hx : y.slc.tx with
    | none => simp [Slc.onLine, hx]
    | some x =>
      cases x with
      | main f => exact absurd rfl (Slc.not_main_of_sendingMain hx hm f)
      | _ => simp [Slc.onLine, hx]
  have hstake : y.slc.withdrawStake.leaveRun.stake = y.slc.stake.withdraw false := by
    rw [← hoff]
    exact Slc.stopped_stake (l := y.slc.withdrawStake) .stopped (.inl hm)
  rw [yieldAddress_waits hd, yielded_sid]
  refine ⟨rfl, hslc, ?_, yielded_latched o y⟩
  change (yielded o y).slc.stake.content = none
  rw [hslc, hstake]
  exact OutSlot.withdraw_offLine _

/-- The state in which the holder has decided to yield to the STAKE delivered (R98, R99). -/
def yieldDecided (f : Frame) (s : State) : State :=
  (stakeDelivered f s).setSid { (stakeDelivered f s).sid with decision := .yielding }

/-- At the holder the EOB contests or yields, and events alone follow (R98, R99). -/
theorem exec_stakeReceived_holder {s : State} {o : Addr} (hr : s.receiving) (h : s.holder o) {src : Byte} (uid : BitVec 64)
    (mode : Byte) (hsrc : src = 63 ∨ src.toNat < 48) :
    exec (.stakeReceived src (addrByte o) uid mode) s = .next (handEvents 0
      (if mode ≠ 1 ∨ s.sid.uid.toNat ≤ uid.toNat then
        (stakeDelivered ⟨src, addrByte o, .stake uid mode⟩ s).setSlc
          ((stakeDelivered ⟨src, addrByte o, .stake uid mode⟩ s).slc.start (.contest (addrByte o)))
      else yieldAddress o (yieldDecided ⟨src, addrByte o, .stake uid mode⟩ s))) := by
  obtain ⟨hst, ho, hlink, hl⟩ := h
  obtain ⟨hst', ho', huid⟩ := stakeDelivered_identity ⟨src, addrByte o, .stake uid mode⟩ s
  have hfc := stakeDelivered_fc ⟨src, addrByte o, .stake uid mode⟩ s
  rw [exec_stakeReceived hr hl o uid mode hsrc]
  nth_rewrite 2 [hlink]
  rw [stakeAtEob_holder (hst'.trans hst) (ho'.trans ho), huid]
  refine congrArg Host.Outcome.next (linkHandOff_holder hlink ?_)
  split
  · exact hfc
  · simpa [yieldDecided] using hfc

theorem handEvents_ptab (pulses : EventSet) (s : State) : (handEvents pulses s).ptab = s.ptab := rfl

theorem handEvents_setSlc_onlyChanges (x : State) (l : Slc) : OnlyChanges [.slc, .evu] x (handEvents 0 (x.setSlc l)) :=
  fun b hb => by cases b <;> simp_all [SameBlock]

/-- The contest at the EOB: the duplicate test apart, the signalling alone has moved (R98, R103). -/
theorem stakeContested {f : Frame} {s u : State} {o : Addr} (h : s.holder o) {l : Slc} (hphase : l.phase = .window)
    (hwindow : l.window = (stakeDelivered f s).slc.window) (hu : u = handEvents 0 ((stakeDelivered f s).setSlc l)) :
    WindowOpened f false u ∧ u.slc = l ∧ TestedForDuplicate f.src o s u ∧ u.ptab = s.ptab ∧
      u.fc = { s.fc with recCount := s.fc.recCount - 1 } ∧ OnlyChanges [.slc, .fc, .sid, .evu] s u := by
  obtain ⟨hst, ho, hlink, -⟩ := h
  have hslc := stakeDelivered_slc f s
  have htested := stakeDelivered_tested f hst ho
  have hptab := stakeDelivered_ptab f s
  have hfc := (stakeDelivered_fc f s).trans (Fc.validMain_active hlink)
  have hchanges := stakeDelivered_onlyChanges f s
  generalize stakeDelivered f s = x at *
  have hopen : l.window = (s.slc.openWindow f false).window := by rw [hwindow, hslc]
  subst hu
  exact ⟨⟨hphase, hopen⟩, rfl, htested, hptab, hfc, hchanges.trans ((handEvents_setSlc_onlyChanges x l).mono (by simp))⟩

theorem yieldAtEob_onlyChanges (f : Frame) (s : State) (o : Addr) :
    OnlyChanges [.slc, .fc, .ptab, .sid, .evu] s (handEvents 0 (yieldAddress o (yieldDecided f s))) := by
  refine ((stakeDelivered_onlyChanges f s).mono (by simp)).trans fun b hb => ?_
  cases b <;> simp_all [SameBlock, yieldDecided]

/-- The yield at the EOB: the choice waits for EOF, and nothing is sent (R73, R74, R99, R101). -/
theorem stakeYielded {f : Frame} {s u : State} {o : Addr} (h : s.holder o) (hm : s.slc.sendingMain = false)
    (hu : u = handEvents 0 (yieldAddress o (yieldDecided f s))) :
    WindowOpened f false u ∧
      (u.sid.own = none ∧ u.sid.st = .claiming ∧ u.sid.decision = .yielding ∧ u.sid.attempts = 0 ∧
        u.sid.candidate = none ∧ u.sid.search = some (addrAfter o 1, false) ∧ u.sid.reassert = false) ∧
      (u.ptab.slots.get o = .empty ∧ ∀ b : Addr, b ≠ o → u.ptab.slots.get b = s.ptab.slots.get b) ∧
      u.evu.latched.getLsbD 13 = true ∧ u.slc.stake.content = none ∧
      (∃ l : Slc, u.slc = { l.leaveRun with ask := u.slc.ask }) ∧
      u.fc = { s.fc with recCount := s.fc.recCount - 1 } ∧ OnlyChanges [.slc, .fc, .ptab, .sid, .evu] s u := by
  obtain ⟨hst, -, hlink, -⟩ := h
  obtain ⟨hst', -, -⟩ := stakeDelivered_identity f s
  have hslc := stakeDelivered_slc f s
  have hptab := stakeDelivered_ptab f s
  have hfc := (stakeDelivered_fc f s).trans (Fc.validMain_active hlink)
  have hmain : (stakeDelivered f s).slc.sendingMain = false := by rw [hslc]; exact hm
  obtain ⟨hsid, hleft, hstake, hlatched⟩ := yieldAddress_atEob o (y := yieldDecided f s) (hst'.trans hst) rfl hmain
  have hslots := yieldAddress_slots o (yieldDecided f s)
  have hchanges := yieldAtEob_onlyChanges f s o
  obtain ⟨-, -, -, -, -, -, hphase, hwindow⟩ := (yieldDecided f s).slc.withdrawStake.leaveRun_fields
  have hopened : (yieldDecided f s).slc = (stakeDelivered f s).slc := rfl
  have hheld : (yieldDecided f s).ptab = s.ptab := hptab
  have hyfc : (yieldAddress o (yieldDecided f s)).fc = (stakeDelivered f s).fc := by simp [yieldDecided]
  generalize yieldAddress o (yieldDecided f s) = y at *
  subst hu
  have hevents := (Evu.take_keeps y.evu y.conditions 0 13).1 hlatched
  refine ⟨?_, ?_, ?_, hevents, hstake, ⟨_, hleft⟩, hyfc.trans hfc, hchanges⟩
  · rw [WindowOpened, handEvents_slc, hleft]
    exact ⟨hphase.trans (by rw [hopened, hslc]; rfl), hwindow.trans (by rw [hopened, hslc]; rfl)⟩
  · rw [handEvents_sid, hsid]
    exact ⟨rfl, rfl, rfl, rfl, rfl, rfl, rfl⟩
  · rw [handEvents_ptab, hslots, hheld]
    exact ⟨Ptab.update_get_self _ _ _, fun b hb => Ptab.update_get_ne _ _ hb⟩

/-- Settles O29: outside RUN and ACTIVE, and for another address, the delivery alone; at the holder the contest or the yield. -/
theorem holderContestsOrYields : Obligations.HolderContestsOrYields := by
  unfold Obligations.HolderContestsOrYields
  refine ⟨fun s c src uid mode hr hl hsrc hnone => ?none, fun s o src uid mode hr h hsrc => ?holder⟩
  case none =>
    obtain ⟨hst', ho', -⟩ := stakeDelivered_identity ⟨src, addrByte c, .stake uid mode⟩ s
    obtain ⟨hwindow, hdraws⟩ := stakeDelivered_drawsNoReply ⟨src, addrByte c, .stake uid mode⟩ (s := s)
    refine ⟨_, exec_stakeReceived hr hl c uid mode hsrc, ?_⟩
    rw [stakeAtEob_none (by rwa [hst', ho'])]
    exact ⟨hwindow, hdraws, by rw [linkHandOff_slots, stakeDelivered_ptab]⟩
  case holder =>
    have hexec := exec_stakeReceived_holder hr h uid mode hsrc
    by_cases hcontest : mode ≠ 1 ∨ s.sid.uid.toNat ≤ uid.toNat
    · rw [if_pos hcontest] at hexec
      have hslc := stakeDelivered_slc ⟨src, addrByte o, .stake uid mode⟩ s
      obtain ⟨hwindow, hsent, htested, hptab, hfc, hchanges⟩ := stakeContested h (f := ⟨src, addrByte o, .stake uid mode⟩)
        (l := (stakeDelivered ⟨src, addrByte o, .stake uid mode⟩ s).slc.start (.contest (addrByte o)))
        (by rw [hslc]; rfl) rfl rfl
      refine ⟨_, hexec, hwindow, fun _ => ⟨congrArg Slc.tx hsent, htested, hptab⟩, fun ⟨hmode, hlower⟩ => ?_, hfc,
        hchanges.mono (by simp)⟩
      exact absurd hcontest (by simp [hmode, hlower])
    · rw [if_neg hcontest] at hexec
      obtain ⟨-, -, hmain⟩ := hr
      obtain ⟨hwindow, ⟨hown, hst, hdecision, hattempts, hcandidate, hsearch, hreassert⟩, ⟨hself, hothers⟩,
        hlatched, hstake, ⟨l, hslc⟩, hfc, hchanges⟩ := stakeYielded (f := ⟨src, addrByte o, .stake uid mode⟩) h hmain rfl
      obtain ⟨htx, hreport, hnotice, hmuster, hrun, hdeferred, -, -⟩ := l.leaveRun_fields
      refine ⟨_, hexec, hwindow, fun h => absurd h hcontest, fun _ => ?_, hfc, hchanges⟩
      refine ⟨hown, hst, hdecision, hattempts, hcandidate, hsearch, hreassert, hself, hothers, hlatched, ?_, hstake, ?_⟩
      · rw [hslc]; exact htx
      · rw [hslc]; exact ⟨hreport, hnotice, hmuster, hrun, hdeferred⟩

end Sys2Proof.Machine
end

section
/-! SUPPORT. A stuck driver stage: detach, recovery and history clear: O44. -/

namespace Sys2Proof.Machine

/-! ### The hand-off of a link state other than ACTIVE (R74, R152) -/

theorem conditions_detached (s : State) : s.conditions.getLsbD 10 = s.fc.link.isDetached := by
  simp only [State.conditions, BitVec.getLsbD_or, entryIf_getLsbD (show 10 < 16 by decide)]
  simp

/-- The event unit shows the link state that has been handed on (R151). -/
theorem confine_detached (f : Fc → Fc) (s : State) : (confine f s).evu.raw.getLsbD 10 = (f s.fc).link.isDetached := by
  rw [confine, linkHandOff_raw, conditions_detached]
  simp

/-- The peer table's view of the link state, and the outcome awaited, under the hand-off (R120). -/
theorem linkTaken_ptab (old : LinkState) (s : State) :
    (linkTaken old s).ptab.heldLink = s.fc.link ∧ (linkTaken old s).ptab.awaited = s.ptab.awaited := by
  rw [linkTaken, askUpdate_ptab]
  exact ⟨rfl, rfl⟩

theorem enterUnaddressed_ptab (s : State) :
    (enterUnaddressed s).ptab.heldLink = s.ptab.heldLink ∧ (enterUnaddressed s).ptab.awaited = s.ptab.awaited := by
  simp only [enterUnaddressed, changeIdentity, handEvents_frame]
  rw [askUpdate_ptab]
  exact ⟨rfl, rfl⟩

theorem chooseCandidate_ptab (start : Addr) (all : Bool) (s : State) :
    (chooseCandidate start all s).ptab.heldLink = s.ptab.heldLink ∧
      (chooseCandidate start all s).ptab.awaited = s.ptab.awaited := by
  unfold chooseCandidate
  split
  · split
    · exact ⟨rfl, rfl⟩
    · exact enterUnaddressed_ptab s
  · exact ⟨rfl, rfl⟩

theorem linkChosen_ptab (s : State) :
    (linkChosen s).ptab.heldLink = s.ptab.heldLink ∧ (linkChosen s).ptab.awaited = s.ptab.awaited := by
  unfold linkChosen resumeChoice
  split
  · exact ⟨rfl, rfl⟩
  · split
    · split
      · exact chooseCandidate_ptab _ _ s
      · exact ⟨rfl, rfl⟩
    · exact ⟨rfl, rfl⟩

theorem linkHandOff_awaited (old : LinkState) (s : State) : (linkHandOff old s).ptab.awaited = s.ptab.awaited := by
  by_cases h : s.fc.link = old
  · rw [linkHandOff_same h]
    simp
  · rw [linkHandOff_changed h]
    simp [linkChosen_ptab, linkTaken_ptab]

/-- Outside ACTIVE a changed link state reaches the transmit choice and the peer table, and no choice is made. -/
theorem linkHandOff_notActive {old : LinkState} {s : State} (hne : s.fc.link ≠ old) (h : s.fc.link ≠ .active) :
    linkHandOff old s = handEvents 0 (linkTaken old s) := by
  have hlink : (linkTaken old s).fc.link ≠ .active := by rwa [(linkTaken_frame old s).1]
  rw [linkHandOff_changed hne, linkChosen_notActive hlink]

/-- Where no claimant's choice waits for ACTIVE, none is made (R93, R99). -/
theorem linkChosen_none {s : State}
    (h : s.sid.st ≠ .claiming ∨ s.sid.candidate.isSome ∨ s.sid.search = none ∨ s.sid.decision = .yielding) :
    linkChosen s = s := by
  unfold linkChosen resumeChoice
  split
  · rfl
  next hdecision =>
    split
    next hsearch =>
      refine if_neg fun hwaits => ?_
      simp only [Bool.and_eq_true, decide_eq_true_eq, Option.isNone_iff_eq_none] at hwaits
      obtain ⟨⟨hst, hcandidate⟩, -⟩ := hwaits
      simp [hst, hcandidate, hsearch, hdecision] at h
    · rfl

/-- What a transmission cut off leaves of the signalling (R72 to R74). -/
theorem Slc.cutOff_fields (l : Slc) :
    l.cutOff = { l with
      driver := l.cutOff.driver, tx := none, txPos := l.cutOff.txPos, mark := l.cutOff.mark, musterReply := l.cutOff.musterReply
      stake := l.cutOff.stake, ask := l.cutOff.ask, notice := l.cutOff.notice, muster := l.cutOff.muster } := by
  unfold Slc.cutOff Slc.musterDone
  cases hx : l.tx with
  | none => simp [hx]
  | some x =>
    rw [if_pos (by rfl), Slc.stop_fields]

theorem Slc.cutOff_keepsContent (l : Slc) : SlotsKeepContent l l.cutOff := by
  unfold SlotsKeepContent Slc.cutOff
  cases hx : l.tx with
  | none => exact ⟨fun _ => ⟨rfl, rfl, rfl⟩, nofun⟩
  | some x =>
    refine ⟨nofun, fun y hy => ?_⟩
    obtain rfl := Option.some.inj hy
    obtain ⟨hstake, -, hnotice, hmuster⟩ := Slc.stop_slots .stopped hx
    exact ⟨hstake, hnotice, hmuster⟩

theorem Slc.cutOff_stopped {l : Slc} (h : l.tx.isSome) : l.cutOff.driver = .released ∧ l.cutOff.mark = .stopped := by
  unfold Slc.cutOff
  rw [if_pos h]
  exact ⟨rfl, rfl⟩

/-- The hand-off of a DETACHED link state cuts the station off the line (R74, R152, R154). -/
theorem confine_cutOff {f : Fc → Fc} {s : State} (h : (f s.fc).link.isDetached = true) : CutOffTheLine s (confine f s) := by
  have hnot : (f s.fc).link ≠ .active := fun he => by simp [he, LinkState.isDetached] at h
  have hslots : SlotsKept s (confine f s) := ⟨confine_slots f s, linkHandOff_awaited _ _⟩
  by_cases hsame : (f s.fc).link = s.fc.link
  · have heq : confine f s = handEvents 0 (s.setFc (f s.fc)) := linkHandOff_same hsame
    refine ⟨by rw [heq]; rfl, hslots, fun _ => by rw [heq]; rfl, fun hactive => absurd hactive (hsame ▸ hnot)⟩
  · have heq : confine f s = handEvents 0 (linkTaken s.fc.link (s.setFc (f s.fc))) := linkHandOff_notActive hsame hnot
    have hsid : (confine f s).sid = s.sid := by
      rw [heq]
      exact linkTaken_sid _ _
    refine ⟨hsid, hslots, fun hother => ?_, fun hactive => ?_⟩
    · rw [heq]
      exact linkTaken_slc hother _
    · have hslc : (confine f s).slc = { s.slc.cutOff with ask := (confine f s).slc.ask } := by
        rw [heq, handEvents_slc, linkTaken, askUpdate_slc]
        simp [hactive]
      have hfields := s.slc.cutOff_fields
      refine ⟨?_, ?_, ?_, fun htx => ?_, ?_⟩
      · rw [hslc]; exact s.slc.cutOff_tx
      · rw [hslc]; exact Slc.musterDone_not_waiting _
      · rw [hslc]; exact s.slc.cutOff_keepsContent
      · rw [hslc]; exact Slc.cutOff_stopped htx
      · rw [hslc, hfields]

/-- The hand-off of a return to ACTIVE makes the waiting choice and tells the peer table (R74, R93, R120, R151). -/
theorem confine_returned {f : Fc → Fc} {s : State} (hold : s.fc.link ≠ .active) (h : (f s.fc).link = .active) :
    ReturnedToActive s (confine f s) := by
  have hne : (s.setFc (f s.fc)).fc.link ≠ s.fc.link := by
    rw [State.setFc_fc, h]
    exact hold.symm
  have heq : confine f s = handEvents 0 (linkChosen (linkTaken s.fc.link (s.setFc (f s.fc)))) := linkHandOff_changed hne
  obtain ⟨hslc, -⟩ := linkHandOff_keeps (old := s.fc.link) (s := s.setFc (f s.fc)) (.inl hold)
  refine ⟨⟨confine_slots f s, linkHandOff_awaited _ _⟩, ?_, ?_,
    linkHandOff_waitingChoiceMade (y := s.setFc (f s.fc)) h hold fun _ => ⟨rfl, rfl⟩, fun hnone => ?_⟩
  · rw [heq]
    refine (linkChosen_ptab _).1.trans ((linkTaken_ptab _ _).1.trans h)
  · exact hslc.trans rfl
  · have hkept : linkChosen (linkTaken s.fc.link (s.setFc (f s.fc))) = linkTaken s.fc.link (s.setFc (f s.fc)) := by
      have hsid : (linkTaken s.fc.link (s.setFc (f s.fc))).sid = s.sid := linkTaken_sid _ _
      exact linkChosen_none (by rwa [hsid])
    rw [heq, hkept]
    refine ⟨linkTaken_sid _ _, ?_⟩
    rw [handEvents_slc, linkTaken_slc hold]
    rfl

/-! ### The detach and the recovery at fault confinement -/

theorem Fc.detachCheck_detaches {f : Fc} {t onTime : Nat} (hcut : f.cut = false) (h : 16 < onTime) :
    f.detachCheck t onTime = f.detach t onTime := by simp [Fc.detachCheck, hcut, fourBitTimesUs, h]

/-- Every detach opens the cut and starts the history clear; it leaves the counts (R154, R156). -/
theorem Fc.detach_fields (f : Fc) (t onTime : Nat) :
    (f.detach t onTime).cut = true ∧ (f.detach t onTime).tec = f.tec ∧ (f.detach t onTime).recCount = f.recCount ∧
      (f.detach t onTime).historyTimer = some (t + 60000000) ∧ (f.detach t onTime).link.isDetached = true := by
  unfold Fc.detach
  split
  · split
    · exact ⟨rfl, rfl, rfl, rfl, rfl⟩
    · exact ⟨rfl, rfl, rfl, rfl, rfl⟩
  · exact ⟨rfl, rfl, rfl, rfl, rfl⟩

/-- The third detach within 60 s latches (R156). -/
theorem Fc.detach_latches {f : Fc} {t a b : Nat} (onTime : Nat) (h : f.history = [a, b]) (hspan : t ≤ a + 60000000) :
    (f.detach t onTime).link = .latched ∧ (f.detach t onTime).history = [a, b] ∧
      (f.detach t onTime).recoveryTimer = none := by
  have hwithin : t - a ≤ historySpanUs := by unfold historySpanUs; omega
  simp [Fc.detach, h, hwithin]

/-- A later third one drops the first of the history (R156). -/
theorem Fc.detach_later {f : Fc} {t a b : Nat} (onTime : Nat) (h : f.history = [a, b]) (hspan : a + 60000000 < t) :
    (f.detach t onTime).link = .detached ∧ (f.detach t onTime).history = [b, t] ∧
      (f.detach t onTime).recoveryTimer = some (t + 1000000) := by
  have hbeyond : ¬t - a ≤ historySpanUs := by unfold historySpanUs; omega
  simp [Fc.detach, h, hbeyond, afterMs]

/-- The first two enter the history (R154, R156). -/
theorem Fc.detach_early {f : Fc} (t onTime : Nat) (h : f.history.length < 2) :
    (f.detach t onTime).link = .detached ∧ (f.detach t onTime).history = f.history ++ [t] ∧
      (f.detach t onTime).recoveryTimer = some (t + 1000000) := by
  unfold Fc.detach
  split
  next hh => simp [hh] at h
  next => exact ⟨rfl, rfl, rfl⟩

/-- The recovery of R155; a stage that still conducts detaches again (log 15). -/
theorem Fc.recover_eq {f : Fc} {e : Nat} (hlink : f.link = .detached) (he : f.recoveryTimer = some e) (conducting : Bool) :
    f.recover conducting =
      if conducting then
        Fc.detach { f with cut := false, tec := 96, link := .active, recoveryTimer := none, driverOn := none } e
          (f.driverOn.getD 0 + 1000000)
      else { f with cut := false, tec := 96, link := .active, recoveryTimer := none, driverOn := none } := by
  simp only [Fc.recover, hlink, he]
  split
  · exact Fc.detachCheck_detaches rfl (by omega)
  · rfl

/-- Settles O44: the detach judged against the history, the recovery in its two ends, and the hand-off that each brings. -/
theorem stuckStageIsCutOffAndRecovers : Obligations.StuckStageIsCutOffAndRecovers := by
  unfold Obligations.StuckStageIsCutOffAndRecovers
  refine fun s hlive => ⟨fun t onTime hcut hon _ => ?detach, fun e hlink he => ?recovers, fun e hlink he => ?conducts,
    fun e he => ?clear⟩
  case detach =>
    have hfc : (confine (fun f => f.detachCheck t onTime) s).fc = s.fc.detach t onTime :=
      (confine_fc _ s).trans (Fc.detachCheck_detaches hcut hon)
    obtain ⟨hopen, htec, hrec, htimer, hdetached⟩ := s.fc.detach_fields t onTime
    have hlink : (s.fc.detachCheck t onTime).link.isDetached = true := by rwa [Fc.detachCheck_detaches hcut hon]
    refine ⟨confine (fun f => f.detachCheck t onTime) s, whenLive_of_live hlive, ?_⟩
    rw [hfc]
    exact ⟨hopen, htec, hrec, htimer, (confine_detached _ s).trans hlink, fun a b hh _ => Fc.detach_latches onTime hh,
      fun a b => Fc.detach_later onTime, Fc.detach_early t onTime, confine_cutOff hlink,
      (confine_onlyChanges _ s).mono (by simp)⟩
  case recovers =>
    have hrecovered := Fc.recover_eq hlink he false
    have hactive : (s.fc.recover false).link = .active := by rw [hrecovered]; rfl
    refine ⟨confine (fun f => f.recover false) s, whenLive_of_live hlive, ?_⟩
    rw [confine_fc, confine_detached, hrecovered]
    exact ⟨rfl, rfl, rfl, rfl, rfl, rfl, rfl, confine_returned (by simp [hlink]) hactive,
      (confine_onlyChanges _ s).mono (by simp)⟩
  case conducts =>
    have hrecovered := Fc.recover_eq hlink he true
    rw [if_pos rfl] at hrecovered
    obtain ⟨hopen, htec, -, htimer, hdetached⟩ := Fc.detach_fields
      { s.fc with cut := false, tec := 96, link := .active, recoveryTimer := none, driverOn := none } e
      (s.fc.driverOn.getD 0 + 1000000)
    rw [← hrecovered] at hopen htec htimer hdetached
    refine ⟨confine (fun f => f.recover true) s, whenLive_of_live hlive, ?_⟩
    rw [confine_fc, confine_detached]
    exact ⟨hopen, htec, hdetached, htimer, hdetached, confine_cutOff hdetached, (confine_onlyChanges _ s).mono (by simp)⟩
  case clear =>
    refine ⟨s.setFc s.fc.clearHistory, whenLive_of_live hlive, ?_, fun b hb => by cases b <;> simp_all [SameBlock]⟩
    simp [Fc.clearHistory, he]

end Sys2Proof.Machine
end

section
/-! SUPPORT. What EOF decides of the station's own STAKE, ASK and MUSTER: O37, O39. -/

namespace Sys2Proof.Machine

/-! ### The close of the frame after its decision (R68) -/

/-- EOF of an open window after loading: its decision, the close, the hand-off. -/
theorem exec_frameEof {s : State} {w : Window} (hlive : s.live) (hp : s.slc.phase = .window) (hw : s.slc.window = some w)
    (hl : s.csto.loaded.isSome) : exec .frameEof s = .next (settle (frameClosed (finishWindow w s))) := by
  have heof : frameEof s = closeFrame w s := by simp [frameEof, hp, hw]
  refine (whenLive_of_live hlive).trans (congrArg Host.Outcome.next ?_)
  rw [heof, closeFrame_eq, if_pos hl]

theorem closed_onlyChanges (w : Window) (s : State) :
    OnlyChanges [.slc, .sid, .ptab, .evu, .lest, .tge] s (settle (frameClosed (finishWindow w s))) := fun b hb => by
  cases b <;> simp_all [SameBlock, frameClosed]

theorem closed_sid (x : State) : (settle (frameClosed x)).sid = { x.sid with decision := .none } := settle_sid _

theorem closed_ptab (x : State) : (settle (frameClosed x)).ptab = x.ptab := settle_ptab _

/-- A latched entry stays latched through the close and its hand-off (R174). -/
theorem closed_latched {x : State} {k : Nat} (h : x.evu.latched.getLsbD k = true) :
    (settle (frameClosed x)).evu.latched.getLsbD k = true := by
  rw [settle_evu]
  exact (Evu.take_keeps x.evu _ 0 k).1 h

/-- The close cuts off what is still being sent; of the signalling that identity and muster run own nothing else moves. -/
theorem closed_slc (x : State) :
    (settle (frameClosed x)).slc.stake = (if x.slc.tx.isSome then x.slc.stop .stopped else x.slc).stake ∧
      (settle (frameClosed x)).slc.muster = (if x.slc.tx.isSome then x.slc.stop .stopped else x.slc).muster ∧
      (settle (frameClosed x)).slc.reportTimer = x.slc.reportTimer ∧
      (settle (frameClosed x)).slc.musterRun = x.slc.musterRun := by
  rw [settle_slc_fields]
  refine ⟨rfl, rfl, ?_, ?_⟩
  · change (if x.slc.tx.isSome then x.slc.stop .stopped else x.slc).reportTimer = _
    split
    · rw [Slc.stop_fields]
    · rfl
  · change (if x.slc.tx.isSome then x.slc.stop .stopped else x.slc).musterRun = _
    split
    · rw [Slc.stop_fields]
    · rfl

/-- A STAKE slot that is not withdrawn stays through the close. -/
theorem closed_stake {x : State} {sl : OutSlot StakeReq} (h : x.slc.stake = sl) (hw : sl.withdrawn = false) :
    (settle (frameClosed x)).slc.stake = sl := by
  obtain ⟨hstake, -⟩ := closed_slc x
  rw [hstake, Slc.stopped_stake .stopped (.inr (by rw [h, hw])), h]

/-- So does a MUSTER slot. -/
theorem closed_muster {x : State} {sl : OutSlot Byte} (h : x.slc.muster = sl) (hw : sl.withdrawn = false) :
    (settle (frameClosed x)).slc.muster = sl := by
  obtain ⟨-, hmuster, -⟩ := closed_slc x
  rw [hmuster]
  cases hx : x.slc.tx with
  | none => simpa using h
  | some y =>
    obtain ⟨-, -, -, hended⟩ := Slc.stop_slots .stopped hx
    exact (hended.kept (.inr (by rw [h, hw]))).trans h

/-! ### What the choice leaves (R93 to R96) -/

/-- Outside ACTIVE the choice waits, with an empty STAKE slot kept empty (R93). -/
theorem chooseCandidate_waiting {s : State} {start : Addr} {all : Bool} (hl : s.fc.link ≠ .active) :
    (chooseCandidate start all s).sid = { s.sid with candidate := none, search := some (start, all) } ∧
      (s.slc.stake = .empty → (chooseCandidate start all s).slc.stake = .empty) := by
  rw [chooseCandidate_waits hl]
  refine ⟨rfl, fun h => ?_⟩
  simp [withdrawStake, Slc.withdrawStake, h, OutSlot.withdraw, OutSlot.empty]

/-- Of identity a choice moves state, candidate and search alone. -/
theorem chooseCandidate_sid (start : Addr) (all : Bool) (s : State) :
    (chooseCandidate start all s).sid = { s.sid with
      st := (chooseCandidate start all s).sid.st, candidate := (chooseCandidate start all s).sid.candidate,
      search := (chooseCandidate start all s).sid.search } := by
  by_cases hl : s.fc.link = .active
  · cases hc : s.ptab.firstFree start all with
    | some c => rw [chooseCandidate_found hl hc]; rfl
    | none => rw [chooseCandidate_notFound hl hc, enterUnaddressed_sid]
  · rw [chooseCandidate_waits hl]; rfl

/-- A latched entry stays latched (R174). -/
theorem chooseCandidate_latched {s : State} {k : Nat} (start : Addr) (all : Bool) (h : s.evu.latched.getLsbD k = true) :
    (chooseCandidate start all s).evu.latched.getLsbD k = true := by
  unfold chooseCandidate
  split
  · split
    · exact h
    · simp only [enterUnaddressed, changeIdentity, handEvents_evu, askUpdate_frame]
      exact (Evu.take_keeps s.evu _ 0 k).1 h
  · exact h

/-! ### The own address yielded at EOF (R101, R104) -/

/-- With an empty STAKE slot a yield leaves it empty before the choice. -/
theorem yielded_stake (a : Addr) {s : State} (hst : s.sid.st = .run) (h : s.slc.stake = .empty) :
    (yielded a s).slc.stake = .empty := by
  have hwithdrawn : s.slc.withdrawStake.stake = .empty := by simp [Slc.withdrawStake, h, OutSlot.withdraw, OutSlot.empty]
  rw [yielded_slc a hst]
  change (if s.slc.withdrawStake.tx.isSome then s.slc.withdrawStake.stop .stopped else s.slc.withdrawStake).stake = .empty
  rw [Slc.stopped_stake .stopped (.inr (by rw [hwithdrawn]; rfl)), hwithdrawn]

/-- A yield at EOF makes the choice, or keeps it for ACTIVE (R93, R101). -/
theorem yieldAddress_choosesAfterYield (a : Addr) {s : State} (hst : s.sid.st = .run) (hd : s.sid.decision ≠ .yielding) :
    ChoosesAfterYield a s (yieldAddress a s) := by
  have hsid := yielded_sid a s
  have hstake := yielded_stake a hst
  have hfc : (yielded a s).fc = s.fc := by simp [yielded]
  rw [yieldAddress_chooses hd]
  refine ⟨fun hl => ⟨fun n hn => ?found, fun hn => ?none⟩, fun hl => ?waits⟩
  case found =>
    obtain ⟨hfound, -⟩ :=
      chooseCandidate_choiceMade (z := yielded a s) (by rw [hfc, hl]) (by simp [hsid]) (addrAfter a 1) false
    obtain ⟨hchosen, hfilled⟩ := hfound n hn
    rw [hchosen, hsid]
    refine ⟨rfl, rfl, rfl, fun h => ?_⟩
    rw [hfilled (hstake h), hsid]
  case none =>
    obtain ⟨-, hnone⟩ :=
      chooseCandidate_choiceMade (z := yielded a s) (by rw [hfc, hl]) (by simp [hsid]) (addrAfter a 1) false
    obtain ⟨hended, hempty⟩ := hnone hn
    rw [hended]
    exact ⟨rfl, rfl, rfl, fun h => hempty (hstake h)⟩
  case waits =>
    obtain ⟨hwaits, hempty⟩ :=
      chooseCandidate_waiting (s := yielded a s) (start := addrAfter a 1) (all := false) (by rwa [hfc])
    rw [hwaits, hsid]
    exact ⟨rfl, rfl, rfl, fun h => hempty (hstake h)⟩

/-- Identity, signalling and events after a yield at EOF, the choice apart (R101, R104). -/
theorem yieldAddress_atEof (a : Addr) {s : State} (hst : s.sid.st = .run) (hd : s.sid.decision ≠ .yielding) :
    (yieldAddress a s).sid.own = none ∧ (yieldAddress a s).sid.reassert = false ∧ (yieldAddress a s).sid.attempts = 0 ∧
      (yieldAddress a s).evu.latched.getLsbD 13 = true ∧ (yieldAddress a s).slc.reportTimer = none ∧
      (yieldAddress a s).slc.musterRun = false := by
  have hsid := yielded_sid a s
  have hchosen := chooseCandidate_sid (addrAfter a 1) false (yielded a s)
  obtain ⟨-, hslc, -, -⟩ := chooseCandidate_keeps (s := yielded a s) (addrAfter a 1) false (by simp [hsid])
  rw [yieldAddress_chooses hd]
  refine ⟨?_, ?_, ?_, ?_, ?_, ?_⟩
  · rw [hchosen, hsid]
  · rw [hchosen, hsid]
  · rw [hchosen, hsid]
  · exact chooseCandidate_latched _ _ (yielded_latched a s)
  · rw [hslc, yielded_slc a hst]; rfl
  · rw [hslc, yielded_slc a hst]; rfl

/-- What a yield leaves for the other tables and for its choice stands after the close. -/
theorem ChoosesAfterYield.closed {a : Addr} {s x : State} (h : ChoosesAfterYield a s x) :
    ChoosesAfterYield a s (settle (frameClosed x)) := by
  unfold ChoosesAfterYield at h ⊢
  rw [closed_sid, closed_ptab]
  obtain ⟨hactive, hwaits⟩ := h
  refine ⟨fun hl => ⟨fun n hn => ?_, fun hn => ?_⟩, fun hl => ?_⟩
  · obtain ⟨hst, hc, hs, hstake⟩ := (hactive hl).1 n hn
    exact ⟨hst, hc, hs, fun he => closed_stake (hstake he) rfl⟩
  · obtain ⟨hst, hc, hs, hstake⟩ := (hactive hl).2 hn
    exact ⟨hst, hc, hs, fun he => closed_stake (hstake he) rfl⟩
  · obtain ⟨hst, hc, hs, hstake⟩ := hwaits hl
    exact ⟨hst, hc, hs, fun he => closed_stake (hstake he) rfl⟩

/-! ### The candidate given up (R96) -/

/-- The attempt has been counted and the candidate dropped. -/
def candidateDropped (s : State) : State := s.setSid { s.sid with attempts := s.sid.attempts + 1, candidate := none }

theorem giveUp_eq (c : Addr) (s : State) : giveUp c s =
    if s.sid.attempts + 1 = 48 then enterUnaddressed (candidateDropped s)
    else chooseCandidate (addrAfter c 1) false (candidateDropped s) := rfl

/-- Of identity giving up moves state, candidate and search, and counts the attempt. -/
theorem giveUp_sid (c : Addr) (s : State) :
    (giveUp c s).sid.own = s.sid.own ∧ (giveUp c s).sid.attempts = s.sid.attempts + 1 := by
  rw [giveUp_eq]
  split
  · rw [enterUnaddressed_sid]
    exact ⟨rfl, rfl⟩
  · rw [chooseCandidate_sid]
    exact ⟨rfl, rfl⟩

theorem giveUp_slots (c : Addr) (s : State) : (giveUp c s).ptab.slots = s.ptab.slots := by
  rw [giveUp_eq]
  split
  · exact enterUnaddressed_slots _
  · exact chooseCandidate_slots _ _ _

/-- The claim goes on: the choice over the 47 others is made or waits (R93, R96). -/
theorem giveUp_goesOn {c : Addr} {s : State} (hst : s.sid.st = .claiming) (hstake : s.slc.stake = .empty) (h : ¬ClaimEnds c s) :
    GoesOnFrom c s (giveUp c s) := by
  obtain ⟨hcount, -⟩ := not_or.mp h
  rw [giveUp_eq, if_neg hcount]
  refine ⟨fun hl n hn => ?_, fun hl => ?_⟩
  · rw [chooseCandidate_found (s := candidateDropped s) hl hn]
    refine ⟨hst, rfl, ?_⟩
    simp [Slc.fillStake, candidateDropped, hstake, OutSlot.fill_empty]
  · obtain ⟨hwaits, hempty⟩ := chooseCandidate_waiting (s := candidateDropped s) (start := addrAfter c 1) (all := false) hl
    rw [hwaits]
    exact ⟨hst, rfl, rfl, hempty hstake⟩

/-- The claim ends in UNADDRESSED (R96, R105). -/
theorem giveUp_ends {c : Addr} {s : State} (hst : s.sid.st = .claiming) (hstake : s.slc.stake = .empty) (h : ClaimEnds c s) :
    (giveUp c s).sid.st = .unaddressed ∧ (giveUp c s).sid.candidate = none ∧ (giveUp c s).sid.search = none ∧
      (giveUp c s).slc.stake = .empty := by
  have hends : giveUp c s = enterUnaddressed (candidateDropped s) := by
    rw [giveUp_eq]
    split
    · rfl
    next hcount =>
      obtain ⟨hl, hnone⟩ := h.resolve_left hcount
      exact chooseCandidate_notFound (s := candidateDropped s) hl hnone
  have hslc := enterUnaddressed_slc (s := candidateDropped s) (by simp [candidateDropped, hst])
  rw [hends, enterUnaddressed_sid, hslc]
  refine ⟨rfl, rfl, rfl, ?_⟩
  simp [candidateDropped, hstake, OutSlot.withdraw, OutSlot.empty]

theorem GoesOnFrom.closed {c : Addr} {s x : State} (h : GoesOnFrom c s x) : GoesOnFrom c s (settle (frameClosed x)) := by
  unfold GoesOnFrom at h ⊢
  rw [closed_sid]
  obtain ⟨hactive, hwaits⟩ := h
  refine ⟨fun hl n hn => ?_, fun hl => ?_⟩
  · obtain ⟨hst, hc, hstake⟩ := hactive hl n hn
    exact ⟨hst, hc, closed_stake hstake rfl⟩
  · obtain ⟨hst, hc, hs, hstake⟩ := hwaits hl
    exact ⟨hst, hc, hs, closed_stake hstake rfl⟩

/-! ### The address taken (R75, R79, R95, R102) -/

/-- Identity, peer table and signalling once a claimant has taken the address. -/
theorem takeAddress_takes {c : Addr} {s : State} (hst : s.sid.st = .claiming) (hstake : s.slc.stake = .empty)
    (hmuster : s.slc.muster = .empty) :
    (takeAddress c s).sid = { s.sid with
        st := .run, own := some c, candidate := none, search := none, attempts := 0 } ∧
      (takeAddress c s).ptab.slots = (s.ptab.update c fun _ => .self).slots ∧ (takeAddress c s).slc.stake = .empty ∧
      (takeAddress c s).slc.muster = ⟨some 0, false, none⟩ ∧
      (takeAddress c s).slc.reportTimer = some (c.val * 7 % s.period) ∧ (takeAddress c s).slc.musterRun = true := by
  dsimp only [takeAddress]
  rw [changeIdentity_sid, (changeIdentity_ptab _ _).2, changeIdentity_slc _ (by simp [hst])]
  refine ⟨rfl, rfl, ?_, ?_, rfl, rfl⟩
  · simp [Slc.fillMuster, Slc.withdrawStake, hstake, OutSlot.withdraw, OutSlot.empty]
  · simp [Slc.fillMuster, Slc.withdrawStake, hmuster, OutSlot.fill_empty]

/-! ### The own STAKE at EOF (R95, R104) -/

/-- The window of the own STAKE is judged by whether its first position has held a block (R66, R95). -/
theorem finishWindow_ownStake {s : State} {w : Window} {c : Addr} {src : Byte} {uid : BitVec 64} {mode : Byte}
    (hown : w.own = true) (hframe : w.frame = ⟨src, addrByte c, .stake uid mode⟩) (hd : s.sid.decision = .none) :
    finishWindow w s = judgeOwnStake c (w.first != .nothing) s := by
  simp [finishWindow, judgeStake, hframe, hown, State.contested, hd]

theorem judgeOwnStake_claim {c : Addr} {s : State} (hst : s.sid.st = .claiming) (hc : s.sid.candidate = some c) (b : Bool) :
    judgeOwnStake c b s = if b then giveUp c s else takeAddress c s := by simp [judgeOwnStake, hst, hc]

theorem judgeOwnStake_reassert {c : Addr} {s : State} (hst : s.sid.st = .run) (ho : s.sid.own = some c)
    (hr : s.sid.reassert = true) (b : Bool) :
    judgeOwnStake c b s = if b then yieldAddress c s else s.setSid { s.sid with reassert := false } := by
  simp [judgeOwnStake, hst, ho, hr]

theorem judgeOwnStake_neither {c : Addr} {s : State} (hclaim : ¬(s.sid.st = .claiming ∧ s.sid.candidate = some c))
    (hrun : ¬(s.sid.st = .run ∧ s.sid.own = some c ∧ s.sid.reassert = true)) (b : Bool) : judgeOwnStake c b s = s := by
  unfold judgeOwnStake
  rw [if_neg (by simpa using hclaim), if_neg (by simpa [and_assoc] using hrun)]

/-- Settles O37: the claim taken or given up, the re-assertion kept or yielded, and the close after each. -/
theorem claimIsDecidedAtEof : Obligations.ClaimIsDecidedAtEof := by
  unfold Obligations.ClaimIsDecidedAtEof
  intro s w c uid mode p hlive hp hw hown hframe hloaded hd
  have hexec := exec_frameEof hlive hp hw (by simp [hloaded])
  have hchanges := closed_onlyChanges w s
  rw [finishWindow_ownStake hown hframe hd] at hexec hchanges
  have hfirst : (w.first != .nothing) = true ↔ w.first ≠ .nothing := bne_iff_ne
  refine ⟨fun hst ho hr => ⟨_, hexec, fun hnone => ?kept, fun hsome => ?yields, hchanges⟩,
    fun hst hc hstake hmuster => ⟨_, hexec, fun hnone => ?taken, fun hsome => ?givenUp, hchanges⟩,
    fun hclaim hrun => ⟨_, hexec, ?_, ?_, hchanges⟩⟩
  case kept =>
    rw [judgeOwnStake_reassert hst ho hr, hnone, closed_sid, closed_ptab]
    refine ⟨?_, rfl⟩
    simp [hd]
  case yields =>
    have hdecision : s.sid.decision ≠ .yielding := by simp [hd]
    obtain ⟨hnone, hreassert, hattempts, hlatched, hreport, hmusterRun⟩ := yieldAddress_atEof c hst hdecision
    obtain ⟨-, -, hclosedReport, hclosedRun⟩ := closed_slc (yieldAddress c s)
    rw [judgeOwnStake_reassert hst ho hr, if_pos (hfirst.mpr hsome), closed_sid, closed_ptab, yieldAddress_slots, hclosedReport,
      hclosedRun]
    exact ⟨hnone, hreassert, hattempts, Ptab.update_get_self _ _ _, fun b hb => Ptab.update_get_ne _ _ hb,
      closed_latched hlatched, hreport, hmusterRun, (yieldAddress_choosesAfterYield c hst hdecision).closed⟩
  case taken =>
    have htaken : judgeOwnStake c (w.first != .nothing) s = takeAddress c s := by
      rw [judgeOwnStake_claim hst hc, hnone]
      rfl
    have hperiod : s.period = p.period := by simp only [State.period, hloaded]
    obtain ⟨hsid, hslots, hempty, hfilled, hreport, hrun⟩ := takeAddress_takes (c := c) hst hstake hmuster
    obtain ⟨-, -, hclosedReport, hclosedRun⟩ := closed_slc (takeAddress c s)
    rw [htaken, closed_sid, hsid, closed_ptab, hslots, hclosedReport, hclosedRun, hreport, hperiod]
    exact ⟨rfl, rfl, rfl, rfl, rfl, Ptab.update_get_self _ _ _, fun b hb => Ptab.update_get_ne _ _ hb, closed_stake hempty rfl,
      rfl, congrArg OutSlot.content (closed_muster hfilled rfl), hrun⟩
  case givenUp =>
    have hgiven : judgeOwnStake c (w.first != .nothing) s = giveUp c s := by
      rw [judgeOwnStake_claim hst hc, if_pos (hfirst.mpr hsome)]
    obtain ⟨hsame, hcount⟩ := giveUp_sid c s
    rw [hgiven]
    refine ⟨by rw [closed_sid]; exact hsame, by rw [closed_sid]; exact hcount, by rw [closed_ptab, giveUp_slots],
      fun h => (giveUp_goesOn hst hstake h).closed, fun h => ?_⟩
    obtain ⟨hended, hcandidate, hsearch, hempty⟩ := giveUp_ends hst hstake h
    rw [closed_sid]
    exact ⟨hended, hcandidate, hsearch, closed_stake hempty rfl⟩
  · rw [judgeOwnStake_neither hclaim hrun, closed_sid]
    simp [← hd]
  · rw [judgeOwnStake_neither hclaim hrun, closed_ptab]

/-! ### The own ASK at EOF (R82, R122) -/

/-- An answer makes the target FRESH (R122). -/
theorem outcome_heard_answered (lum : Rgb Nat) (flags : Byte) (h tries : Nat) :
    (PeerSlot.heard h tries).outcome (.answered lum flags) = .fresh lum flags 0 0 := rfl

/-- BAD and SILENT raise its ask tries (R122). -/
theorem outcome_heard_missed {o : AskOutcome} (ho : o = .bad ∨ o = .silent) (h tries : Nat) :
    (PeerSlot.heard h tries).outcome o = .heard h (min 3 (tries + 1)) := by rcases ho with rfl | rfl <;> rfl

theorem Window.outcome_answered {w : Window} {block : List Byte} {lum : Rgb Nat} {flags : Byte}
    (h : w.answer = some (true, block)) (hb : capabilityOf? block = some (lum, flags)) : w.outcome = .answered lum flags := by
  simp [Window.outcome, h, hb]

/-- Every other window gives BAD or SILENT (R82). -/
theorem Window.outcome_missed {w : Window} (h : w.answer = none ∨ (∃ block, w.answer = some (false, block)) ∨
    ∃ block, w.answer = some (true, block) ∧ capabilityOf? block = none) : w.outcome = .bad ∨ w.outcome = .silent := by
  rcases h with h | ⟨block, h⟩ | ⟨block, h, hb⟩
  · simp only [Window.outcome, h]
    split
    · exact .inl rfl
    · exact .inr rfl
  · simp [Window.outcome, h]
  · simp [Window.outcome, h, hb]

theorem finishWindow_ownAsk {s : State} {w : Window} {a : Addr} {src sel : Byte} (hown : w.own = true)
    (hframe : w.frame = ⟨src, addrByte a, .ask sel⟩) : finishWindow w s = askOutcome a w.outcome s := by
  simp [finishWindow, finishAsk, hframe, hown]

/-- The outcome reaches the target's slot and clears outcome awaited (R122). -/
theorem askOutcome_ptab (a : Addr) (o : AskOutcome) (s : State) :
    (askOutcome a o s).ptab.awaited = false ∧ (askOutcome a o s).ptab.slots.get a = (s.ptab.slots.get a).outcome o ∧
      ∀ b : Addr, b ≠ a → (askOutcome a o s).ptab.slots.get b = s.ptab.slots.get b := by
  refine ⟨?_, actOnSlot_slots a (PeerSlot.outcome o) (s.setPtab { s.ptab with awaited := false })⟩
  rw [askOutcome, actOnSlot, askUpdate_ptab]
  rfl

/-! ### The own MUSTER at EOF (R79) -/

theorem Window.nextStart_eq_some {w : Window} {start v : Byte} (hv : w.lastMuster = some v) (hr : w.running = true)
    (hcount : w.musterCount = 16) (hlo : start.toNat < v.toNat + 1) (hhi : v.toNat + 1 ≤ 47) :
    w.nextStart start = some (v + 1) := by simp [Window.nextStart, hv, hr, hcount, hlo, hhi]

theorem Window.nextStart_eq_none {w : Window} {start : Byte} (h : ¬∃ v : Byte, w.lastMuster = some v ∧ w.running = true ∧
    w.musterCount = 16 ∧ start.toNat < v.toNat + 1 ∧ v.toNat + 1 ≤ 47) : w.nextStart start = none := by
  unfold Window.nextStart
  split
  next v hv =>
    rw [if_neg]
    simp only [Bool.and_eq_true, decide_eq_true_eq]
    rintro ⟨⟨⟨hr, hcount⟩, hlo⟩, hhi⟩
    exact h ⟨v, hv, hr, hcount, hlo, hhi⟩
  next => rfl

/-- The run goes on with a fill of its slot (R79). -/
theorem finishWindow_runGoesOn {s : State} {w : Window} {src tgt start v : Byte} (hown : w.own = true)
    (hframe : w.frame = ⟨src, tgt, .muster start⟩) (hrun : s.slc.musterRun = true) (hnext : w.nextStart start = some v) :
    finishWindow w s = s.setSlc (s.slc.fillMuster v) := by
  simp [finishWindow, hframe, hown, musterStep, hrun, hnext]

/-- The run ends (R79). -/
theorem finishWindow_runEnds {s : State} {w : Window} {src tgt start : Byte} (hown : w.own = true)
    (hframe : w.frame = ⟨src, tgt, .muster start⟩) (hrun : s.slc.musterRun = true) (hnext : w.nextStart start = none) :
    finishWindow w s = s.setSlc { s.slc with musterRun := false } := by
  simp [finishWindow, hframe, hown, musterStep, hrun, hnext]

/-- The own MUSTER moves nothing of the peer table. -/
theorem finishWindow_muster_ptab {s : State} {w : Window} {src tgt start : Byte} (hown : w.own = true)
    (hframe : w.frame = ⟨src, tgt, .muster start⟩) (hrun : s.slc.musterRun = true) :
    (finishWindow w s).ptab = s.ptab := by
  cases hnext : w.nextStart start with
  | some v => rw [finishWindow_runGoesOn hown hframe hrun hnext]; rfl
  | none => rw [finishWindow_runEnds hown hframe hrun hnext]; rfl

/-- Settles O39: the outcome at the target's slot, and the step of the run, each closed alike. -/
theorem ownWindowsAreDecidedAtEof : Obligations.OwnWindowsAreDecidedAtEof := by
  unfold Obligations.OwnWindowsAreDecidedAtEof
  intro s w src hlive hp hw hown hl
  have hexec := exec_frameEof hlive hp hw hl
  have hchanges := closed_onlyChanges w s
  refine ⟨fun a sel hframe => ⟨_, hexec, ?awaited, fun b hb => ?others, ?target, hchanges⟩,
    fun start hframe hrun hempty _ => ⟨_, hexec, ?run, ?table, ?changes⟩⟩
  case awaited =>
    obtain ⟨hawaited, -⟩ := askOutcome_ptab a w.outcome s
    rw [closed_ptab, finishWindow_ownAsk hown hframe, hawaited]
  case others =>
    obtain ⟨-, -, hothers⟩ := askOutcome_ptab a w.outcome s
    rw [closed_ptab, finishWindow_ownAsk hown hframe, hothers b hb]
  case target =>
    obtain ⟨-, hself, -⟩ := askOutcome_ptab a w.outcome s
    rw [closed_ptab, finishWindow_ownAsk hown hframe, hself]
    cases hslot : s.ptab.slots.get a with
    | heard h tries =>
      refine ⟨fun block lum flags hanswer hb => ?_, fun hmissed => ?_⟩
      · rw [Window.outcome_answered hanswer hb, outcome_heard_answered]
      · rw [outcome_heard_missed (Window.outcome_missed hmissed)]
    | _ => rfl
  case run =>
    obtain ⟨-, -, -, hrunKept⟩ := closed_slc (finishWindow w s)
    split
    next hgoes =>
      obtain ⟨v, hv, hr, hcount, hlo, hhi⟩ := hgoes
      have hgoesOn := finishWindow_runGoesOn hown hframe hrun (Window.nextStart_eq_some hv hr hcount hlo hhi)
      have hfilled : (finishWindow w s).slc.muster = ⟨some (v + 1), false, none⟩ := by
        simp [hgoesOn, Slc.fillMuster, hempty, OutSlot.fill_empty]
      refine ⟨fun v' hv' => ?_, ?_⟩
      · obtain rfl : v = v' := Option.some.inj (hv.symm.trans hv')
        rw [closed_muster hfilled rfl]
      · rw [hrunKept, hgoesOn]
        exact hrun
    next hends =>
      have hrunEnds := finishWindow_runEnds hown hframe hrun (Window.nextStart_eq_none hends)
      have hstill : (finishWindow w s).slc.muster = .empty := by rw [hrunEnds]; exact hempty
      refine ⟨?_, ?_⟩
      · rw [closed_muster hstill rfl]
        rfl
      · rw [hrunKept, hrunEnds]
        rfl
  case table => rw [closed_ptab, finishWindow_muster_ptab hown hframe hrun]
  case changes =>
    intro b hb
    by_cases hptab : b = .ptab
    · subst hptab
      exact (closed_ptab _).trans (finishWindow_muster_ptab hown hframe hrun)
    · exact hchanges b (by simpa [hptab] using hb)

end Sys2Proof.Machine
end

section
/-! SUPPORT. What a command does to the own address and to the event unit, operation by operation: it leaves the address and
announces what arises, or it yields the address, or takes one. -/

namespace Sys2Proof.Machine

/-! ### The event unit from one state to a later one -/

/-- Entry `k` is latched, with its arisal mark set (R174). -/
def Evu.Arisen (e : Evu) (k : Nat) : Prop := e.latched.getLsbD k = true ∧ e.marks.getLsbD k = true

/-- From `e` to `e'` no latched entry and no arisal mark has gone, and what has risen in the raw set has arisen (R174). -/
structure Evu.Gains (e e' : Evu) : Prop where
  latched : ∀ k, e.latched.getLsbD k = true → e'.latched.getLsbD k = true
  marks : ∀ k, e.marks.getLsbD k = true → e'.marks.getLsbD k = true
  rises : ∀ k, e.raw.getLsbD k = false → e'.raw.getLsbD k = true → e'.Arisen k

theorem Evu.Gains.refl (e : Evu) : e.Gains e :=
  ⟨fun _ => id, fun _ => id, fun k h0 h1 => by simp [h0] at h1⟩

theorem Evu.Gains.arisen {e e' : Evu} (h : e.Gains e') {k : Nat} (ha : e.Arisen k) : e'.Arisen k :=
  ⟨h.latched k ha.1, h.marks k ha.2⟩

/-- An entry that has risen on the way has arisen then, and stays so. -/
theorem Evu.Gains.trans {e e' e'' : Evu} (h : e.Gains e') (k : e'.Gains e'') : e.Gains e'' := by
  refine ⟨fun i hi => k.latched i (h.latched i hi), fun i hi => k.marks i (h.marks i hi), fun i h0 h2 => ?_⟩
  cases h1 : e'.raw.getLsbD i with
  | false => exact k.rises i h1 h2
  | true => exact k.arisen (h.rises i h0 h1)

theorem Evu.gains_take (e : Evu) (now pulses : EventSet) : e.Gains (e.take now pulses) :=
  ⟨fun k => (e.take_keeps now pulses k).1, fun k => (e.take_keeps now pulses k).2, fun _ h0 h1 => Evu.take_arises h0 h1⟩

/-! ### What an operation leaves of the own address -/

/-- Queue, UID and loaded copy are the same in both. -/
structure SamePart (s t : State) : Prop where
  pending : t.pending = s.pending
  uid : t.sid.uid = s.sid.uid
  loaded : t.csto.loaded = s.csto.loaded

theorem SamePart.trans {s t u : State} (h : SamePart s t) (k : SamePart t u) : SamePart s u :=
  ⟨k.pending.trans h.pending, k.uid.trans h.uid, k.loaded.trans h.loaded⟩

/-- A claimant's move: neither state is LOAD or RUN. -/
def ClaimMoves (st st' : IdState) : Prop := (st ≠ .load ∧ st ≠ .run) ∧ (st' = .claiming ∨ st' = .unaddressed)

/-- Own address and SELF slots are as they were, and the identity state has moved as a claim moves it at most (R91, R102). -/
structure AddressKept (s t : State) : Prop where
  part : SamePart s t
  own : t.sid.own = s.sid.own
  st : t.sid.st = s.sid.st ∨ ClaimMoves s.sid.st t.sid.st
  self : ∀ a : Addr, t.ptab.slots.get a = .self ↔ s.ptab.slots.get a = .self

theorem AddressKept.st_iff {s t : State} (h : AddressKept s t) {k : IdState} (hk : k = .load ∨ k = .run) :
    t.sid.st = k ↔ s.sid.st = k := by
  rcases h.st with hst | ⟨⟨hload, hrun⟩, hst⟩
  · rw [hst]
  · rcases hk with rfl | rfl
    · exact iff_of_false (by rcases hst with e | e <;> simp [e]) hload
    · exact iff_of_false (by rcases hst with e | e <;> simp [e]) hrun

theorem AddressKept.trans {s t u : State} (h : AddressKept s t) (k : AddressKept t u) : AddressKept s u := by
  refine ⟨h.part.trans k.part, k.own.trans h.own, ?_, fun a => (k.self a).trans (h.self a)⟩
  rcases k.st with hu | ⟨⟨hload, hrun⟩, hu⟩
  · rw [hu]; exact h.st
  · exact .inr ⟨⟨fun e => hload ((h.st_iff (.inl rfl)).mpr e), fun e => hrun ((h.st_iff (.inr rfl)).mpr e)⟩, hu⟩

theorem AddressKept.addressInv {s t : State} (h : AddressKept s t) (hs : AddressInv s) : AddressInv t := by
  obtain ⟨hload, hrun, hself⟩ := hs
  unfold AddressInv
  rw [h.st_iff (.inl rfl), h.st_iff (.inr rfl), h.own, h.part.loaded]
  exact ⟨hload, hrun, fun a => (h.self a).trans (hself a)⟩

/-- The operation has kept the own address, and what it has brought about has arisen at the event unit, a duplicate included
(R102, R103, R174). -/
structure KeepsAddress (s t : State) : Prop extends AddressKept s t where
  events : s.evu.Gains t.evu
  duplicate : s.sid.reassert = false → t.sid.reassert = true → t.evu.Arisen 15

theorem KeepsAddress.trans {s t u : State} (h : KeepsAddress s t) (k : KeepsAddress t u) : KeepsAddress s u := by
  refine ⟨h.toAddressKept.trans k.toAddressKept, h.events.trans k.events, fun h0 h2 => ?_⟩
  cases h1 : t.sid.reassert with
  | false => exact k.duplicate h1 h2
  | true => exact k.events.arisen (h.duplicate h0 h1)

/-- What moves neither identity nor event unit, no peer slot to SELF or from it, and leaves queue and loaded copy. -/
theorem keepsAddress_of_self {s t : State} (hp : t.pending = s.pending) (hc : t.csto.loaded = s.csto.loaded) (hi : t.sid = s.sid)
    (he : t.evu = s.evu) (hself : ∀ a : Addr, t.ptab.slots.get a = .self ↔ s.ptab.slots.get a = .self) : KeepsAddress s t := by
  refine ⟨⟨⟨hp, by rw [hi], hc⟩, by rw [hi], .inl (by rw [hi]), hself⟩, by rw [he]; exact .refl _, fun h0 h1 => ?_⟩
  rw [hi, h0] at h1
  cases h1

theorem keepsAddress_of_same {s t : State} (hp : t.pending = s.pending) (hc : t.csto.loaded = s.csto.loaded) (hi : t.sid = s.sid)
    (he : t.evu = s.evu) (ht : t.ptab.slots = s.ptab.slots) : KeepsAddress s t :=
  keepsAddress_of_self hp hc hi he fun a => by rw [ht]

theorem KeepsAddress.refl (s : State) : KeepsAddress s s := keepsAddress_of_same rfl rfl rfl rfl rfl

theorem keepsAddress_ite {c : Prop} [Decidable c] {s a b : State} (ha : KeepsAddress s a) (hb : KeepsAddress s b) :
    KeepsAddress s (if c then a else b) := by
  split
  · exact ha
  · exact hb

theorem keepsAddress_whenLive {s a t : State} (h : whenLive s a = .next t) (ha : KeepsAddress s a) : KeepsAddress s t :=
  whenLive_next h (.refl s) ha

theorem keepsAddress_setSlc (s : State) (l : Slc) : KeepsAddress s (s.setSlc l) := keepsAddress_of_same rfl rfl rfl rfl rfl

/-- Of identity, the search, the counts and the decision are free, and a re-assertion may end. -/
theorem keepsAddress_setSid (s : State) {x : Sid} (hu : x.uid = s.sid.uid) (ho : x.own = s.sid.own) (hst : x.st = s.sid.st)
    (hr : x.reassert = true → s.sid.reassert = true) : KeepsAddress s (s.setSid x) := by
  refine ⟨⟨⟨rfl, hu, rfl⟩, ho, .inl hst, fun a => Iff.rfl⟩, .refl _, fun h0 h1 => ?_⟩
  rw [hr h1] at h0
  cases h0

/-- So what follows such a move keeps the address from before it. -/
theorem KeepsAddress.of_setSid {s t : State} {x : Sid} (h : KeepsAddress (s.setSid x) t) (hu : x.uid = s.sid.uid)
    (ho : x.own = s.sid.own) (hst : x.st = s.sid.st) (hr : x.reassert = true → s.sid.reassert = true) : KeepsAddress s t :=
  (keepsAddress_setSid s hu ho hst hr).trans h

/-! ### The hand-offs -/

theorem keepsAddress_handEvents (pulses : EventSet) (s : State) : KeepsAddress s (handEvents pulses s) := by
  refine ⟨⟨⟨rfl, rfl, rfl⟩, rfl, .inl rfl, fun a => Iff.rfl⟩, s.evu.gains_take _ _, fun h0 h1 => ?_⟩
  rw [handEvents_sid, h0] at h1
  cases h1

theorem keepsAddress_settle (s : State) : KeepsAddress s (settle s) := by
  refine ⟨⟨⟨by simp, by simp, by simp⟩, by simp, .inl (by simp), fun a => by simp⟩, ?_, fun h0 h1 => ?_⟩
  · rw [settle_evu]
    exact s.evu.gains_take _ _
  · rw [settle_sid, h0] at h1
    cases h1

theorem keepsAddress_askUpdate (s : State) : KeepsAddress s (askUpdate s) :=
  keepsAddress_of_same (by simp) (by simp) (by simp) (by simp) (by simp)

/-- A slot's operation makes no slot SELF and none other than SELF. -/
def PeerSlot.KeepsSelf (f : PeerSlot → PeerSlot) : Prop := ∀ x, f x = .self ↔ x = .self

theorem Ptab.update_self {f : PeerSlot → PeerSlot} (hf : PeerSlot.KeepsSelf f) (t : Ptab) (a b : Addr) :
    (t.update a f).slots.get b = .self ↔ t.slots.get b = .self := by
  by_cases h : b = a
  · subst h
    rw [Ptab.update_get_self, hf]
  · rw [Ptab.update_get_ne t f h]

theorem keepsAddress_updateAll {f : PeerSlot → PeerSlot} (hf : PeerSlot.KeepsSelf f) (s : State) :
    KeepsAddress s (s.setPtab (s.ptab.updateAll f)) :=
  keepsAddress_of_self rfl rfl rfl rfl fun a => by rw [State.setPtab_ptab, Ptab.updateAll_get, hf]

theorem keepsAddress_actOnSlot {f : PeerSlot → PeerSlot} (hf : PeerSlot.KeepsSelf f) (a : Addr) (s : State) :
    KeepsAddress s (actOnSlot a f s) :=
  KeepsAddress.trans (t := s.setPtab (s.ptab.update a f))
    (keepsAddress_of_self rfl rfl rfl rfl fun b => Ptab.update_self hf s.ptab a b) (keepsAddress_askUpdate _)

theorem PeerSlot.report_keepsSelf (lum : Rgb Nat) (flags : Byte) : KeepsSelf (PeerSlot.report lum flags) := fun x => by
  rw [PeerSlot.report_eq]
  split <;> simp_all

theorem PeerSlot.life_keepsSelf : KeepsSelf PeerSlot.life := fun x => by cases x <;> simp [PeerSlot.life]

theorem PeerSlot.free_keepsSelf : KeepsSelf PeerSlot.free := fun x => by cases x <;> simp [PeerSlot.free]

theorem PeerSlot.age_keepsSelf (n : Nat) : KeepsSelf (PeerSlot.age n) := fun x => by cases x <;> simp [PeerSlot.age]

theorem PeerSlot.goStale_keepsSelf (n : Nat) : KeepsSelf (PeerSlot.goStale n) := fun x => by
  unfold PeerSlot.goStale
  repeat' split
  all_goals simp

theorem PeerSlot.remove_keepsSelf (n : Nat) : KeepsSelf (PeerSlot.remove n) := fun x => by
  unfold PeerSlot.remove
  repeat' split
  all_goals simp

theorem PeerSlot.outcome_keepsSelf (o : AskOutcome) : KeepsSelf (PeerSlot.outcome o) := fun x => by
  cases x with
  | heard => cases o <;> simp [PeerSlot.outcome, PeerSlot.isHeard, PeerSlot.report, PeerSlot.missed]
  | _ => simp [PeerSlot.outcome, PeerSlot.isHeard]

/-! ### A claim's moves -/

theorem keepsAddress_changeIdentity {new : IdState} {s : State} (h : ClaimMoves s.sid.st new) :
    KeepsAddress s (changeIdentity new s) := by
  refine ⟨⟨⟨by simp, by rw [changeIdentity_sid], by simp⟩, by rw [changeIdentity_sid], .inr (by rw [changeIdentity_sid]; exact h),
    fun a => by rw [(changeIdentity_ptab new s).2]⟩, ?_, fun h0 h1 => ?_⟩
  · simp only [changeIdentity, handEvents_evu, askUpdate_frame]
    exact s.evu.gains_take _ _
  · rw [changeIdentity_sid, h0] at h1
    cases h1

theorem keepsAddress_withdrawStake (s : State) : KeepsAddress s (withdrawStake s) := keepsAddress_of_same rfl rfl rfl rfl rfl

/-- A claimant's entry to UNADDRESSED (R105). -/
theorem keepsAddress_enterUnaddressed {s : State} (h : s.sid.st = .claiming) : KeepsAddress s (enterUnaddressed s) :=
  have hentered (x : State) (hx : x.sid.st = .claiming) : KeepsAddress x (changeIdentity .unaddressed x) :=
    keepsAddress_changeIdentity ⟨by simp [hx], .inr rfl⟩
  KeepsAddress.of_setSid ((keepsAddress_withdrawStake _).trans (hentered _ h)) rfl rfl rfl id

/-- A claimant's choice (R93). -/
theorem keepsAddress_chooseCandidate {s : State} (start : Addr) (all : Bool) (h : s.sid.st = .claiming) :
    KeepsAddress s (chooseCandidate start all s) := by
  unfold chooseCandidate
  split
  · split
    · exact KeepsAddress.of_setSid (keepsAddress_setSlc _ _) rfl rfl rfl id
    · exact keepsAddress_enterUnaddressed h
  · exact KeepsAddress.of_setSid (keepsAddress_withdrawStake _) rfl rfl rfl id

/-- A claim from the seed starts in LISTEN or UNADDRESSED (R92, R105). -/
theorem keepsAddress_claimFromSeed {s : State} (h : s.sid.st ≠ .load ∧ s.sid.st ≠ .run) : KeepsAddress s (claimFromSeed s) := by
  have hentered : KeepsAddress s (claimEntered s) :=
    KeepsAddress.of_setSid (keepsAddress_changeIdentity (by exact ⟨h, .inl rfl⟩)) rfl rfl rfl id
  exact hentered.trans (keepsAddress_chooseCandidate _ _ (by rw [claimEntered_sid]))

theorem keepsAddress_giveUp {s : State} (c : Addr) (h : s.sid.st = .claiming) : KeepsAddress s (giveUp c s) := by
  have hdropped : KeepsAddress s (candidateDropped s) := keepsAddress_setSid s rfl rfl rfl id
  rw [giveUp_eq]
  exact hdropped.trans (keepsAddress_ite (keepsAddress_enterUnaddressed h) (keepsAddress_chooseCandidate _ _ h))

theorem keepsAddress_resumeChoice (s : State) : KeepsAddress s (resumeChoice s) := by
  unfold resumeChoice
  split
  · split
    next h =>
      simp only [Bool.and_eq_true, decide_eq_true_eq] at h
      exact keepsAddress_chooseCandidate _ _ h.1.1
    · exact .refl s
  · exact .refl s

theorem keepsAddress_slotEmptied (s : State) : KeepsAddress s (slotEmptied s) := by
  unfold slotEmptied
  split
  next h => exact keepsAddress_claimFromSeed (by simp [h])
  · exact .refl s

theorem keepsAddress_listenEnd (s : State) : KeepsAddress s (listenEnd s) := by
  unfold listenEnd
  split
  · split
    next h =>
      simp only [Bool.and_eq_true, decide_eq_true_eq] at h
      exact keepsAddress_claimFromSeed (by simp [h.1])
    · exact .refl s
  · exact .refl s

/-- A duplicate has arisen where its re-assertion starts (R103). -/
theorem keepsAddress_duplicateTest (src : Byte) (s : State) : KeepsAddress s (duplicateTest src s) := by
  unfold duplicateTest
  split
  · split
    · exact ⟨⟨⟨rfl, rfl, rfl⟩, rfl, .inl rfl, fun a => Iff.rfl⟩, s.evu.gains_take _ _,
        fun _ _ => Evu.take_pulses (by decide)⟩
    · exact .refl s
  · exact .refl s

/-! ### A change of link state -/

theorem keepsAddress_linkHandOff (old : LinkState) (s : State) : KeepsAddress s (linkHandOff old s) := by
  by_cases h : s.fc.link = old
  · rw [linkHandOff_same h]
    exact keepsAddress_handEvents 0 s
  · have htaken : KeepsAddress s (linkTaken old s) :=
      keepsAddress_of_same (by simp [linkTaken]) (by simp [linkTaken]) (linkTaken_sid old s) (linkTaken_evu old s)
        (linkTaken_slots old s)
    have hchosen : KeepsAddress (linkTaken old s) (linkChosen (linkTaken old s)) :=
      keepsAddress_ite (.refl _) (keepsAddress_resumeChoice _)
    rw [linkHandOff_changed h]
    exact (htaken.trans hchosen).trans (keepsAddress_handEvents 0 _)

theorem keepsAddress_confine (f : Fc → Fc) (s : State) : KeepsAddress s (confine f s) :=
  KeepsAddress.trans (t := s.setFc (f s.fc)) (keepsAddress_of_same rfl rfl rfl rfl rfl) (keepsAddress_linkHandOff _ _)

theorem keepsAddress_malformed (f : Finding) (s : State) : KeepsAddress s (malformed f s) :=
  (keepsAddress_setSlc s _).trans (keepsAddress_confine _ _)

theorem keepsAddress_replyError (w : Window) (f : ReplyFinding) (s : State) : KeepsAddress s (replyError w f s) :=
  (keepsAddress_setSlc s _).trans (keepsAddress_confine _ _)

end Sys2Proof.Machine
end

section
/-! SUPPORT. The own address and the event unit under every command: those that keep the address, the yields, the address
taken. -/

namespace Sys2Proof.Machine

/-! ### Ticks and aged slots -/

theorem keepsAddress_slotsRemoved (p : Params) (s : State) : KeepsAddress s (slotsRemoved p s) :=
  keepsAddress_ite (.refl s) ((keepsAddress_updateAll (PeerSlot.remove_keepsSelf _) s).trans (keepsAddress_askUpdate _))

theorem keepsAddress_handOverEmptied (w : Bool) (s : State) : KeepsAddress s (handOverEmptied w s) :=
  keepsAddress_ite (keepsAddress_setSid s rfl rfl rfl id) (keepsAddress_slotEmptied s)

theorem keepsAddress_takeHandOff (s : State) : KeepsAddress s (takeHandOff s) :=
  keepsAddress_ite (keepsAddress_slotEmptied s) (.refl s)

theorem keepsAddress_removeSlots (w : Bool) (p : Params) (s : State) : KeepsAddress s (removeSlots w p s) := by
  rw [removeSlots_eq]
  exact (keepsAddress_slotsRemoved p s).trans (keepsAddress_ite (keepsAddress_takeHandOff _) (keepsAddress_handOverEmptied w _))

theorem keepsAddress_staleSlots (p : Params) (s : State) : KeepsAddress s (staleSlots p s) :=
  keepsAddress_updateAll (PeerSlot.goStale_keepsSelf _) s

theorem keepsAddress_tickPeers (w : Bool) (s : State) : KeepsAddress s (tickPeers w s) := by
  unfold tickPeers
  split
  next p _ =>
    have haged : KeepsAddress s (agePeers p s) := keepsAddress_updateAll (PeerSlot.age_keepsSelf _) s
    exact (haged.trans (keepsAddress_removeSlots w p _)).trans (keepsAddress_staleSlots p _)
  next => exact .refl s

theorem keepsAddress_tick (s : State) : KeepsAddress s (tick s) := by
  obtain ⟨f, w, n, h⟩ := tick_eq s
  have hcounts (x : State) : KeepsAddress x (tickSseq (tickEngine f x)) :=
    keepsAddress_of_same (by simp) (by simp) (by simp) (by simp) (by simp)
  have hpeers := (keepsAddress_tickPeers w s).trans (hcounts (tickPeers w s))
  rw [h, tickIn]
  generalize tickSseq (tickEngine f (tickPeers w s)) = y at hpeers
  have hlisten := (keepsAddress_setSlc y (y.slc.tick y.sid.st)).trans
    (keepsAddress_setSid _ (x := y.sid.tick y.period) rfl rfl rfl id)
  exact (hpeers.trans hlisten).trans (keepsAddress_of_same rfl rfl rfl rfl rfl)

/-- A tick with its hand-off, after the timebase has taken the edge or the expiry (R1, R2). -/
theorem keepsAddress_settle_tick (x : Ftb) (s : State) : KeepsAddress s (settle (tick (s.setFtb x))) :=
  KeepsAddress.trans (t := s.setFtb x) (keepsAddress_of_same rfl rfl rfl rfl rfl)
    ((keepsAddress_tick _).trans (keepsAddress_settle _))

theorem keepsAddress_substituteTick (s : State) : KeepsAddress s (substituteTick s) := by
  unfold substituteTick
  split
  · exact .refl s
  · exact keepsAddress_settle_tick _ s

theorem keepsAddress_slotStale (s : State) : KeepsAddress s (slotStale s) := by
  unfold slotStale
  split
  · exact (keepsAddress_staleSlots _ s).trans (keepsAddress_settle _)
  · exact .refl s

theorem keepsAddress_slotRemoval (s : State) : KeepsAddress s (slotRemoval s) := by
  unfold slotRemoval
  split
  · exact keepsAddress_removeSlots _ _ s
  · exact .refl s

/-! ### Sensor bus and sense rounds -/

theorem keepsAddress_temperatureRead (o : Option Int) (s : State) : KeepsAddress s (temperatureRead o s) := by
  unfold temperatureRead
  split
  · refine KeepsAddress.trans ?_ (keepsAddress_settle _)
    exact keepsAddress_of_same (by simp) (by simp) (by simp) (by simp) (by simp)
  · exact .refl s

theorem keepsAddress_countArrival (o : Option (BitVec 16)) (s : State) : KeepsAddress s (countArrival o s) := by
  unfold countArrival
  split
  · refine KeepsAddress.trans ?_ (keepsAddress_settle _)
    exact keepsAddress_of_same (by simp) (by simp) (by simp) (by simp) (by simp)
  · exact .refl s

theorem keepsAddress_windowClose (s : State) : KeepsAddress s (windowClose s) := by
  have hsettled {x : State} (h : KeepsAddress s x) : KeepsAddress s (settle x) := h.trans (keepsAddress_settle x)
  unfold windowClose
  split
  · exact keepsAddress_of_same rfl rfl rfl rfl rfl
  · exact keepsAddress_of_same rfl rfl rfl rfl rfl
  · exact hsettled (keepsAddress_of_same rfl rfl rfl rfl rfl)
  · exact hsettled (keepsAddress_of_same rfl rfl rfl rfl rfl)

theorem keepsAddress_settleTimeout (s : State) : KeepsAddress s (settleTimeout s) := by
  unfold settleTimeout
  split
  · split
    · refine KeepsAddress.trans ?_ (keepsAddress_settle _)
      exact keepsAddress_of_same rfl rfl rfl rfl rfl
    · exact .refl s
  · exact .refl s

/-! ### Signalling -/

theorem keepsAddress_startOfFrame (t pulse : Nat) (s : State) : KeepsAddress s (startOfFrame t pulse s) := by
  have hbit (l : Slc) : KeepsAddress s (s.setSlc l) := keepsAddress_setSlc s l
  unfold startOfFrame
  split
  · exact hbit _
  · exact keepsAddress_ite (.refl s) (keepsAddress_ite (keepsAddress_of_same rfl rfl rfl rfl rfl) (hbit _))
  · exact keepsAddress_ite (hbit _) (keepsAddress_malformed _ s)
  · split
    · exact keepsAddress_ite (hbit _) (keepsAddress_replyError _ _ s)
    · exact hbit _

theorem keepsAddress_transmitStart (sof : SofSent) (s : State) : KeepsAddress s (transmitStart sof s) := by
  unfold transmitStart
  split
  · split
    · exact keepsAddress_ite (keepsAddress_of_same rfl rfl rfl rfl rfl) (keepsAddress_setSlc s _)
    · exact keepsAddress_setSlc s _
  · exact .refl s

theorem keepsAddress_ownComplete {k : Kind} {h : Frame → State → State} (hh : ∀ f x, KeepsAddress x (h f x)) (s : State) :
    KeepsAddress s (ownComplete k h s) := by
  unfold ownComplete
  split
  · refine KeepsAddress.trans ?_ (keepsAddress_linkHandOff _ _)
    refine KeepsAddress.trans ?_ (hh _ _)
    exact keepsAddress_of_same rfl rfl rfl rfl rfl
  · exact .refl s

theorem keepsAddress_noticeDone (f : Frame) (s : State) : KeepsAddress s (noticeDone f s) :=
  keepsAddress_of_same (by simp) (by simp) (by simp) (by simp) (by simp)

theorem keepsAddress_askCompleted (s : State) : KeepsAddress s (askCompleted s) := keepsAddress_of_same rfl rfl rfl rfl rfl

theorem keepsAddress_busStuckSet (d : Nat) (s : State) : KeepsAddress s (busStuckSet d s) := by
  have hpulse : KeepsAddress s (stuckPulse d s) := by
    unfold stuckPulse
    split
    · exact keepsAddress_malformed _ s
    · exact keepsAddress_replyError _ _ s
    · exact .refl s
  unfold busStuckSet
  split
  · refine hpulse.trans (KeepsAddress.trans ?_ (keepsAddress_handEvents 0 _))
    exact keepsAddress_of_same rfl rfl rfl rfl rfl
  · exact .refl s

/-! ### Main parts of other stations -/

theorem keepsAddress_signOfLife (x : Byte) (s : State) : KeepsAddress s (signOfLife x s) := by
  unfold signOfLife
  split
  · exact keepsAddress_actOnSlot PeerSlot.life_keepsSelf _ s
  · exact .refl s

theorem keepsAddress_deliverToTable (f : Frame) (s : State) : KeepsAddress s (deliverToTable f s) := by
  unfold deliverToTable
  split
  · split
    · exact keepsAddress_actOnSlot (PeerSlot.report_keepsSelf _ _) _ s
    · exact .refl s
  · exact keepsAddress_signOfLife _ s
  · exact keepsAddress_signOfLife _ s
  · exact keepsAddress_signOfLife _ s
  · exact .refl s

theorem keepsAddress_receiveMain (f : Frame) (s : State) : KeepsAddress s (receiveMain f s) := by
  refine KeepsAddress.trans ?_ (keepsAddress_handEvents 0 _)
  exact keepsAddress_of_same rfl rfl rfl rfl rfl

/-- The state in which a main part of another station's has been delivered (R63, R68, R87). -/
def mainDelivered (f : Frame) (s : State) : State := deliver f (receiveMain f s)

theorem keepsAddress_mainDelivered (f : Frame) (s : State) : KeepsAddress s (mainDelivered f s) :=
  (keepsAddress_receiveMain f s).trans
    (keepsAddress_ite ((keepsAddress_duplicateTest _ _).trans (keepsAddress_deliverToTable f _)) (.refl _))

/-- A main part of another station's is handled at its EOB, with the link state handed on after it; or nothing is handled, as
before loading ends or at a malformed frame, and the address is kept (R59, R63, R87). -/
theorem frameReceived_cases (f : Frame) (h : LinkState → State → State) (s : State) :
    KeepsAddress s (frameReceived f h s) ∨
      frameReceived f h s = linkHandOff s.fc.link (h s.fc.link (mainDelivered f s)) := by
  dsimp only [frameReceived]
  split
  · split
    · split
      · exact .inr rfl
      · exact .inl ((keepsAddress_mainDelivered f s).trans (keepsAddress_linkHandOff _ _))
    · exact .inl (keepsAddress_malformed _ s)
  · exact .inl (.refl s)

theorem keepsAddress_frameReceived {f : Frame} {h : LinkState → State → State} (hh : ∀ k x, KeepsAddress x (h k x)) (s : State) :
    KeepsAddress s (frameReceived f h s) := by
  rcases frameReceived_cases f h s with hk | hk
  · exact hk
  · rw [hk]
    exact ((keepsAddress_mainDelivered f s).trans (hh _ _)).trans (keepsAddress_linkHandOff _ _)

theorem keepsAddress_musterReplyStart (start : Byte) (link : LinkState) (s : State) :
    KeepsAddress s (musterReplyStart start link s) :=
  keepsAddress_of_same (by simp) (by simp) (by simp) (by simp) (by simp)

theorem keepsAddress_fixtureAtEob (tgt code : Byte) (args : List Byte) (link : LinkState) (s : State) :
    KeepsAddress s (fixtureAtEob tgt code args link s) :=
  keepsAddress_of_same (by simp) (by simp) (by simp) (by simp) (by simp)

/-- Every selector but STATUS_CLEAR's leaves the event unit (R177). -/
theorem keepsAddress_askAtEob {sel : Byte} (h : sel ≠ 0x02) (tgt : Byte) (link : LinkState) (s : State) :
    KeepsAddress s (askAtEob tgt sel link s) := by
  have hgiven : KeepsAddress s (giveAnswer sel s) :=
    keepsAddress_of_same (by simp) (by simp) (by simp) (by rw [giveAnswer_evu, if_neg h]) (by simp)
  unfold askAtEob
  split
  · exact keepsAddress_ite hgiven (.refl s)
  · exact .refl s

theorem keepsAddress_askReceived {sel : Byte} (h : sel ≠ 0x02) (src tgt : Byte) (s : State) :
    KeepsAddress s (askReceived src tgt sel s) :=
  keepsAddress_frameReceived (fun _ x => keepsAddress_askAtEob h tgt _ x) s

/-! ### Replies -/

theorem keepsAddress_deliverLife (v : Byte) (s : State) : KeepsAddress s (deliverLife v s) :=
  keepsAddress_ite (keepsAddress_signOfLife v s) (.refl s)

theorem keepsAddress_contestByte (v : Byte) (s : State) : KeepsAddress s (contestByte v s) := by
  unfold contestByte
  split
  · exact (keepsAddress_setSlc s _).trans (keepsAddress_deliverLife v _)
  · exact keepsAddress_setSlc s _

theorem keepsAddress_musterByte (v : Byte) (s : State) : KeepsAddress s (musterByte v s) := by
  have hnext (x : State) : KeepsAddress x (musterNext x) :=
    keepsAddress_of_same (by simp) (by simp) (by simp) (by simp) (by simp)
  unfold musterByte
  split
  · exact ((keepsAddress_setSlc s _).trans (keepsAddress_deliverLife v _)).trans (hnext _)
  · exact keepsAddress_setSlc s _

theorem keepsAddress_answerReceived (block : List Byte) (s : State) : KeepsAddress s (answerReceived block s) := by
  unfold answerReceived
  split
  · exact keepsAddress_ite (.refl s) (keepsAddress_ite (keepsAddress_replyError _ _ s) (keepsAddress_setSlc s _))
  · exact keepsAddress_setSlc s _

theorem keepsAddress_replyBlockError (e : ReplyError) (s : State) : KeepsAddress s (replyBlockError e s) := by
  unfold replyBlockError
  split
  · exact keepsAddress_replyError _ _ s
  · exact keepsAddress_setSlc s _

/-! ### The commands that keep the address -/

/-- The commands that can move the own address, or that clear entries of the event unit or marks: RESET, the end of loading, a
STAKE of another station's, the own reply, the close of a frame, and the ASK that can be a STATUS_CLEAR. -/
def movesAddress : Instr → Bool
  | .reset | .endOfLoading | .stakeReceived _ _ _ _ | .statusClear _ _ | .unknownSelector _ _ _ | .ownReplyComplete | .frameEof
  | .busStuckClear => true
  | _ => false

theorem exec_keepsAddress {c : Instr} {s t : State} (hc : movesAddress c = false) (h : exec c s = .next t) : KeepsAddress s t := by
  cases c with
  | reset | endOfLoading | stakeReceived | statusClear | unknownSelector | ownReplyComplete | frameEof | busStuckClear => cases hc
  | resetRelease =>
    obtain rfl := Host.Outcome.next.inj h
    exact keepsAddress_ite (keepsAddress_of_same rfl rfl rfl rfl rfl) (.refl s)
  | fsyncEdge => exact keepsAddress_whenLive h (keepsAddress_ite (keepsAddress_settle_tick _ s) (.refl s))
  | substituteTick => exact keepsAddress_whenLive h (keepsAddress_substituteTick s)
  | pollTimerExpiry =>
    refine keepsAddress_whenLive h ?_
    split
    · exact .refl s
    · exact keepsAddress_of_same rfl rfl rfl rfl rfl
  | temperatureReadCompletion => exact keepsAddress_whenLive h (keepsAddress_temperatureRead _ s)
  | senseWindowClose => exact keepsAddress_whenLive h (keepsAddress_windowClose s)
  | countArrival => exact keepsAddress_whenLive h (keepsAddress_countArrival _ s)
  | settleTimeout => exact keepsAddress_whenLive h (keepsAddress_settleTimeout s)
  | receiverReady | arbitrationLoss | sendSymbolError | reportTimerDue | spacingCountFull =>
    exact keepsAddress_whenLive h (keepsAddress_ite (keepsAddress_setSlc s _) (.refl s))
  | transmitStart => exact keepsAddress_whenLive h (keepsAddress_transmitStart _ s)
  | bitError =>
    exact keepsAddress_whenLive h (keepsAddress_ite ((keepsAddress_setSlc s _).trans (keepsAddress_confine _ _)) (.refl s))
  | malformedFrame => exact keepsAddress_whenLive h (keepsAddress_ite (keepsAddress_malformed _ s) (.refl s))
  | ownNoticeComplete => exact keepsAddress_whenLive h (keepsAddress_ownComplete keepsAddress_noticeDone s)
  | ownAskComplete => exact keepsAddress_whenLive h (keepsAddress_ownComplete (fun _ => keepsAddress_askCompleted) s)
  | ownStakeComplete | ownMusterComplete => exact keepsAddress_whenLive h (keepsAddress_ownComplete (fun _ => .refl) s)
  | noticeReceived => exact keepsAddress_whenLive h (keepsAddress_frameReceived (fun _ => keepsAddress_settle) s)
  | musterReceived =>
    exact keepsAddress_whenLive h (keepsAddress_frameReceived (keepsAddress_musterReplyStart _) s)
  | capability | status | identity | gains | targets | storeState =>
    exact keepsAddress_whenLive h (keepsAddress_askReceived (by decide) _ _ s)
  | page src tgt k => exact keepsAddress_whenLive h (keepsAddress_askReceived (answerFor_page k s).2 _ _ s)
  | arm | disarm | burn | lock | unknownCommand =>
    exact keepsAddress_whenLive h (keepsAddress_frameReceived (keepsAddress_fixtureAtEob _ _ _) s)
  | contestByteReceived => exact keepsAddress_whenLive h (keepsAddress_contestByte _ s)
  | musterByteReceived => exact keepsAddress_whenLive h (keepsAddress_musterByte _ s)
  | answerBlockReceived => exact keepsAddress_whenLive h (keepsAddress_answerReceived _ s)
  | replyBlockError => exact keepsAddress_whenLive h (keepsAddress_replyBlockError _ s)
  | listenEnd => exact keepsAddress_whenLive h (keepsAddress_listenEnd s)
  | slotStale => exact keepsAddress_whenLive h (keepsAddress_slotStale s)
  | slotRemoval => exact keepsAddress_whenLive h (keepsAddress_slotRemoval s)
  | silenceExpiry | detach | detachRecovery => exact keepsAddress_whenLive h (keepsAddress_confine _ s)
  | busStuckSet => exact keepsAddress_whenLive h (keepsAddress_busStuckSet _ s)
  | startOfFrame => exact keepsAddress_whenLive h (keepsAddress_startOfFrame _ _ s)
  | senseWindowOpen | intervalTimerExpiry | fixtureStatusByteReceived | driverTransferComplete | detachHistoryClear
  | burnByteComplete | lockComplete =>
    exact keepsAddress_whenLive h (keepsAddress_of_same (by simp) (by simp) (by simp) (by simp) (by simp))

end Sys2Proof.Machine
end

section
/-! SUPPORT. The own address yielded and taken, and what every command does to it: O2, O48, O59. -/

namespace Sys2Proof.Machine

/-! ### The own address yielded and taken -/

/-- The own address `a` has been yielded: its slot is EMPTY, no other has turned SELF, ADDR_YIELD has arisen (R101, R102). -/
structure Yielded (a : Addr) (s t : State) : Prop where
  part : SamePart s t
  wasHeld : s.sid.st = .run ∧ s.sid.own = some a
  own : t.sid.own = none
  st : t.sid.st = .claiming ∨ t.sid.st = .unaddressed
  slot : t.ptab.slots.get a = .empty
  others : ∀ b : Addr, b ≠ a → (t.ptab.slots.get b = .self ↔ s.ptab.slots.get b = .self)
  events : s.evu.Gains t.evu
  arisen : t.evu.Arisen 13
  duplicate : s.sid.reassert = false → t.sid.reassert = true → t.evu.Arisen 15

/-- The candidate `c` has become the own address: its slot is SELF, and no other has turned so (R95, R102). -/
structure Taken (c : Addr) (s t : State) : Prop where
  part : SamePart s t
  wasClaimed : s.sid.st = .claiming ∧ s.sid.candidate = some c
  held : t.sid.st = .run ∧ t.sid.own = some c
  slot : t.ptab.slots.get c = .self
  others : ∀ b : Addr, b ≠ c → (t.ptab.slots.get b = .self ↔ s.ptab.slots.get b = .self)
  events : s.evu.Gains t.evu
  duplicate : s.sid.reassert = false → t.sid.reassert = true → t.evu.Arisen 15

theorem Yielded.addressInv {a : Addr} {s t : State} (h : Yielded a s t) (hs : AddressInv s) : AddressInv t := by
  obtain ⟨hload, -, hself⟩ := hs
  obtain ⟨hrun, hown⟩ := h.wasHeld
  have hst : t.sid.st ≠ .load ∧ t.sid.st ≠ .run := by rcases h.st with e | e <;> simp [e]
  have hloaded : s.csto.loaded ≠ none := fun e => by simp [hload.mpr e] at hrun
  refine ⟨iff_of_false hst.1 (by rwa [h.part.loaded]), iff_of_false (by simp [h.own]) hst.2, fun b => ?_⟩
  refine iff_of_false (fun hb => ?_) (by simp [h.own])
  by_cases hba : b = a
  · rw [hba, h.slot] at hb
    cases hb
  · exact hba (Option.some.inj (((hself b).mp ((h.others b hba).mp hb)).symm.trans hown))

theorem Taken.addressInv {c : Addr} {s t : State} (h : Taken c s t) (hs : AddressInv s) : AddressInv t := by
  obtain ⟨hload, hrun, hself⟩ := hs
  obtain ⟨hclaiming, -⟩ := h.wasClaimed
  obtain ⟨hst, hown⟩ := h.held
  have hloaded : s.csto.loaded ≠ none := fun e => by simp [hload.mpr e] at hclaiming
  have hnone : s.sid.own = none := by
    rw [← Option.not_isSome_iff_eq_none, hrun, hclaiming]
    decide
  refine ⟨iff_of_false (by simp [hst]) (by rwa [h.part.loaded]), iff_of_true (by simp [hown]) hst, fun b => ?_⟩
  by_cases hbc : b = c
  · subst hbc
    exact iff_of_true h.slot hown
  · rw [h.others b hbc, hself b, hnone, hown]
    exact iff_of_false (by simp) fun e => hbc (Option.some.inj e).symm

/-- A yield after an operation that has kept the address, and with another after it that leaves the slots. -/
theorem Yielded.between {a : Addr} {s x y t : State} (hx : KeepsAddress s x) (h : Yielded a x y) (ht : KeepsAddress y t)
    (hslots : t.ptab.slots = y.ptab.slots) : Yielded a s t := by
  refine ⟨(hx.part.trans h.part).trans ht.part, ⟨(hx.st_iff (.inr rfl)).mp h.wasHeld.1, hx.own ▸ h.wasHeld.2⟩,
    ht.own.trans h.own, ?_, by rw [hslots, h.slot], fun b hb => ?_, (hx.events.trans h.events).trans ht.events,
    ht.events.arisen h.arisen, fun h0 h3 => ?_⟩
  · rcases ht.st with e | ⟨-, e⟩
    · rw [e]; exact h.st
    · exact e
  · rw [hslots, h.others b hb, hx.self b]
  · cases h2 : y.sid.reassert with
    | false => exact ht.duplicate h2 h3
    | true =>
      cases h1 : x.sid.reassert with
      | false => exact ht.events.arisen (h.duplicate h1 h2)
      | true => exact (h.events.trans ht.events).arisen (hx.duplicate h0 h1)

theorem Taken.trans {c : Addr} {s y t : State} (h : Taken c s y) (ht : KeepsAddress y t) : Taken c s t := by
  refine ⟨h.part.trans ht.part, h.wasClaimed, ⟨(ht.st_iff (.inr rfl)).mpr h.held.1, ht.own.trans h.held.2⟩,
    (ht.self c).mpr h.slot, fun b hb => (ht.self b).trans (h.others b hb), h.events.trans ht.events, fun h0 h2 => ?_⟩
  cases h1 : y.sid.reassert with
  | false => exact ht.duplicate h1 h2
  | true => exact ht.events.arisen (h.duplicate h0 h1)

theorem yielded_evu (a : Addr) (s : State) : s.evu.Gains (yielded a s).evu ∧ (yielded a s).evu.Arisen 13 := by
  simp only [yielded, changeIdentity, handEvents_evu, askUpdate_frame]
  have hlater := Evu.gains_take ((withdrawStake (handEvents evAddrYield
    ((s.setSid { s.sid with own := none, reassert := false, attempts := 0, candidate := none }).setPtab
      (s.ptab.update a fun _ => .empty)))).evu)
  exact ⟨(s.evu.gains_take _ _).trans (hlater _ _), (hlater _ _).arisen (Evu.take_pulses (by decide))⟩

/-- The five steps of R101 at a holder, before the choice. -/
theorem yielded_yielded {a : Addr} {s : State} (hst : s.sid.st = .run) (ho : s.sid.own = some a) : Yielded a s (yielded a s) := by
  obtain ⟨hgains, harisen⟩ := yielded_evu a s
  have hslots : (yielded a s).ptab.slots = (s.ptab.update a fun _ => .empty).slots := (changeIdentity_ptab _ _).2.trans rfl
  refine ⟨⟨by simp [yielded], by rw [yielded_sid], by simp [yielded]⟩, ⟨hst, ho⟩, by rw [yielded_sid],
    .inl (by rw [yielded_sid]), by rw [hslots, Ptab.update_get_self], fun b hb => by rw [hslots, Ptab.update_get_ne _ _ hb],
    hgains, harisen, fun _ h1 => ?_⟩
  rw [yielded_sid] at h1
  cases h1

theorem yieldAddress_yielded {a : Addr} {s : State} (hst : s.sid.st = .run) (ho : s.sid.own = some a) :
    Yielded a s (yieldAddress a s) := by
  have hclaiming : (yielded a s).sid.st = .claiming := by rw [yielded_sid]
  rw [yieldAddress_eq]
  split
  · exact .between (.refl s) (yielded_yielded hst ho) (keepsAddress_setSid _ rfl rfl rfl id) rfl
  · exact .between (.refl s) (yielded_yielded hst ho) (keepsAddress_chooseCandidate _ _ hclaiming) (chooseCandidate_slots _ _ _)

theorem takeAddress_taken {c : Addr} {s : State} (hst : s.sid.st = .claiming) (hc : s.sid.candidate = some c) :
    Taken c s (takeAddress c s) := by
  dsimp only [takeAddress]
  refine ⟨⟨by simp, by rw [changeIdentity_sid]; rfl, by simp⟩, ⟨hst, hc⟩, by rw [changeIdentity_sid]; exact ⟨rfl, rfl⟩, ?_,
    fun b hb => ?_, ?_, fun h0 h1 => ?_⟩
  · rw [(changeIdentity_ptab _ _).2]
    exact Ptab.update_get_self _ _ _
  · rw [(changeIdentity_ptab _ _).2]
    exact iff_of_eq (congrArg (· = PeerSlot.self) (Ptab.update_get_ne _ _ hb))
  · simp only [changeIdentity, handEvents_evu, askUpdate_frame]
    exact s.evu.gains_take _ _
  · rw [changeIdentity_sid] at h1
    rw [show s.sid.reassert = true from h1] at h0
    cases h0

/-! ### The close of a frame -/

/-- At the close of a frame the address is kept, yielded, or taken (R95, R99 to R102, R104). -/
def AddressDecided (s t : State) : Prop := KeepsAddress s t ∨ (∃ a, Yielded a s t) ∨ ∃ c, Taken c s t

/-- What follows keeps the address and leaves the slots. -/
theorem AddressDecided.trans {s x t : State} (h : AddressDecided s x) (ht : KeepsAddress x t)
    (hslots : t.ptab.slots = x.ptab.slots) : AddressDecided s t := by
  rcases h with h | ⟨a, h⟩ | ⟨c, h⟩
  · exact .inl (h.trans ht)
  · exact .inr (.inl ⟨a, .between (.refl s) h ht hslots⟩)
  · exact .inr (.inr ⟨c, h.trans ht⟩)

theorem judgeOwnStake_decided (tgt : Addr) (contested : Bool) (s : State) :
    AddressDecided s (judgeOwnStake tgt contested s) := by
  unfold judgeOwnStake
  split
  next h =>
    simp only [Bool.and_eq_true, decide_eq_true_eq] at h
    obtain ⟨hst, hc⟩ := h
    split
    · exact .inl (keepsAddress_giveUp tgt hst)
    · exact .inr (.inr ⟨tgt, takeAddress_taken hst hc⟩)
  next =>
    split
    next h =>
      simp only [Bool.and_eq_true, decide_eq_true_eq] at h
      obtain ⟨⟨hst, ho⟩, -⟩ := h
      split
      · exact .inr (.inl ⟨tgt, yieldAddress_yielded hst ho⟩)
      · exact .inl (keepsAddress_setSid s rfl rfl rfl nofun)
    · exact .inl (.refl s)

/-- Another station's STAKE leaves the address or makes the holder of its target yield (R97, R99, R100). -/
theorem judgeOtherStake_decided (tgt : Addr) (contested : Bool) (s : State) :
    KeepsAddress s (judgeOtherStake tgt contested s) ∨ Yielded tgt s (judgeOtherStake tgt contested s) := by
  unfold judgeOtherStake
  split
  · exact .inl (keepsAddress_resumeChoice s)
  · split
    next h =>
      simp only [Bool.and_eq_true, decide_eq_true_eq] at h
      exact .inl (keepsAddress_giveUp tgt h.1)
    next =>
      split
      next h =>
        simp only [Bool.and_eq_true, decide_eq_true_eq] at h
        exact .inr (yieldAddress_yielded h.1.1 h.1.2)
      next => exact .inl (.refl s)

theorem keepsAddress_emptySlot (tgt : Addr) (s : State) : KeepsAddress s (emptySlot tgt s) :=
  keepsAddress_ite (.refl s) ((keepsAddress_actOnSlot PeerSlot.free_keepsSelf tgt s).trans (keepsAddress_slotEmptied _))

/-- A slot that is EMPTY already is not emptied (R115, R119). -/
theorem emptySlot_of_empty {tgt : Addr} {s : State} (h : s.ptab.slots.get tgt = .empty) : emptySlot tgt s = s :=
  if_pos (by rw [h]; rfl)

theorem judgeStake_decided (w : Window) (s : State) : AddressDecided s (judgeStake w s) := by
  unfold judgeStake
  split
  next tgt _ =>
    dsimp only
    split
    · exact judgeOwnStake_decided tgt _ s
    · rcases judgeOtherStake_decided tgt (s.contested w) s with h | h
      · exact .inl (h.trans (keepsAddress_ite (.refl _) (keepsAddress_emptySlot tgt _)))
      · rw [emptySlot_of_empty h.slot, ite_self]
        exact .inr (.inl ⟨tgt, h⟩)
  next => exact .inl (.refl s)

theorem finishWindow_decided (w : Window) (s : State) : AddressDecided s (finishWindow w s) := by
  have hask : KeepsAddress s (finishAsk w s) := by
    unfold finishAsk
    split
    · exact KeepsAddress.trans (t := s.setPtab { s.ptab with awaited := false }) (keepsAddress_of_same rfl rfl rfl rfl rfl)
        (keepsAddress_actOnSlot (PeerSlot.outcome_keepsSelf _) _ _)
    · exact .refl s
  have hmuster (start : Byte) : KeepsAddress s (musterStep w start s) :=
    keepsAddress_of_same (by simp) (by simp) (by simp) (by simp) (by simp)
  unfold finishWindow
  split
  · exact judgeStake_decided w s
  · exact .inl (keepsAddress_ite hask (.refl s))
  · exact .inl (keepsAddress_ite (hmuster _) (.refl s))
  · exact .inl (.refl s)
  · exact .inl (.refl s)

theorem keepsAddress_frameClosed (s : State) : KeepsAddress s (frameClosed s) :=
  (keepsAddress_setSlc s _).trans (keepsAddress_setSid _ rfl rfl rfl id)

theorem closeFrame_decided (w : Window) (s : State) : AddressDecided s (closeFrame w s) := by
  have hdecided : AddressDecided s (if s.csto.loaded.isSome then finishWindow w s else s) := by
    split
    · exact finishWindow_decided w s
    · exact .inl (.refl s)
  rw [closeFrame_eq]
  exact hdecided.trans ((keepsAddress_frameClosed _).trans (keepsAddress_settle _)) (by rw [closed_ptab])

theorem frameEof_decided (s : State) : AddressDecided s (frameEof s) := by
  unfold frameEof
  split
  · split
    · exact closeFrame_decided _ s
    · exact .inl (.refl s)
  · exact .inl (.refl s)

/-- A stuck line that clears closes the frame that it found open (R157; log 11). -/
theorem busStuckClear_decided (s : State) : AddressDecided s (busStuckClear s) := by
  have hclear (x : Fc) : KeepsAddress s (s.setFc x) := keepsAddress_of_same rfl rfl rfl rfl rfl
  dsimp only [busStuckClear]
  split
  · split
    next w _ =>
      rcases closeFrame_decided w (s.setFc { s.fc with busStuck := false, stuckFor := none }) with h | ⟨a, h⟩ | ⟨c, h⟩
      · exact .inl ((hclear _).trans h)
      · exact .inr (.inl ⟨a, .between (hclear _) h (.refl _) rfl⟩)
      · have hpart : SamePart s (s.setFc { s.fc with busStuck := false, stuckFor := none }) := ⟨rfl, rfl, rfl⟩
        exact .inr (.inr ⟨c, hpart.trans h.part, h.wasClaimed, h.held, h.slot, h.others, h.events, h.duplicate⟩)
    next =>
      refine .inl (KeepsAddress.trans ?_ (keepsAddress_handEvents 0 _))
      exact keepsAddress_of_same rfl rfl rfl rfl rfl
  · exact .inl (.refl s)

/-! ### Another station's STAKE at its EOB -/

/-- The command that makes the holder of `a` yield at an EOB: a HELD STAKE for it from a lower UID, in ACTIVE (R99). -/
def YieldsAtEob (a : Addr) (c : Instr) (s : State) : Prop :=
  ∃ src uid, c = .stakeReceived src (addrByte a) uid 1 ∧ s.fc.link = .active ∧ uid.toNat < s.sid.uid.toNat

/-- What the EOB decides at the holder of its target (R98, R99). -/
theorem stakeAtEob_decided (tgt : Byte) (uid : BitVec 64) (mode : Byte) (link : LinkState) (s : State) :
    KeepsAddress s (stakeAtEob tgt uid mode link s) ∨
      ∃ a, tgt = addrByte a ∧ link = .active ∧ mode = 1 ∧ uid.toNat < s.sid.uid.toNat ∧
        Yielded a s (stakeAtEob tgt uid mode link s) := by
  unfold stakeAtEob
  split
  next a ho =>
    split
    next h =>
      simp only [Bool.and_eq_true, decide_eq_true_eq, mayReply_iff] at h
      obtain ⟨⟨hlink, hst⟩, htgt⟩ := h
      split
      next => exact .inl (keepsAddress_setSlc s _)
      next hcontests =>
        have hmode : stakeModeOf mode ≠ .fresh ∧ uid.toNat < s.sid.uid.toNat := by simpa [contests] using hcontests
        refine .inr ⟨a, htgt, hlink, by simpa [stakeModeOf] using hmode.1, hmode.2, ?_⟩
        have hdecided : KeepsAddress s (s.setSid { s.sid with decision := .yielding }) := keepsAddress_setSid s rfl rfl rfl id
        exact .between hdecided (yieldAddress_yielded hst ho) (.refl _) rfl
    next => exact .inl (.refl s)
  next => exact .inl (.refl s)

theorem stakeReceived_decided (src tgt : Byte) (uid : BitVec 64) (mode : Byte) (s : State) :
    let t := frameReceived { src := src, tgt := tgt, body := .stake uid mode } (stakeAtEob tgt uid mode) s
    KeepsAddress s t ∨ ∃ a, YieldsAtEob a (.stakeReceived src tgt uid mode) s ∧ Yielded a s t := by
  dsimp only
  rcases frameReceived_cases { src := src, tgt := tgt, body := .stake uid mode } (stakeAtEob tgt uid mode) s with h | h
  · exact .inl h
  · have hdelivered := keepsAddress_mainDelivered { src := src, tgt := tgt, body := .stake uid mode } s
    rw [h]
    rcases stakeAtEob_decided tgt uid mode s.fc.link (mainDelivered { src := src, tgt := tgt, body := .stake uid mode } s) with
      hk | ⟨a, rfl, hlink, rfl, hlower, hy⟩
    · exact .inl ((hdelivered.trans hk).trans (keepsAddress_linkHandOff _ _))
    · rw [hdelivered.part.uid] at hlower
      exact .inr ⟨a, ⟨src, uid, rfl, hlink, hlower⟩,
        .between hdelivered hy (keepsAddress_linkHandOff _ _) (linkHandOff_slots _ _)⟩

/-! ### The commands that clear entries or marks -/

/-- A clear request moves the event unit alone, and a contest the window decision (R98, R178). -/
theorem addressKept_ownReply (s : State) : AddressKept s (ownReply s) := by
  have hdone (x : Sending) (y : State) : AddressKept y (replyDone x y) := by
    unfold replyDone
    split <;> exact ⟨⟨rfl, rfl, rfl⟩, rfl, .inl rfl, fun _ => Iff.rfl⟩
  unfold ownReply
  split
  · split
    · exact (keepsAddress_setSlc s _).toAddressKept.trans (hdone _ _)
    · exact (KeepsAddress.refl s).toAddressKept
  · exact (KeepsAddress.refl s).toAddressKept

/-- An ASK of any selector leaves the own address (R83). -/
theorem addressKept_askReceived (src tgt sel : Byte) (s : State) : AddressKept s (askReceived src tgt sel s) := by
  have hasked (x : State) : AddressKept x (askAtEob tgt sel s.fc.link x) :=
    ⟨⟨by simp, by simp, by simp⟩, by simp, .inl (by simp), fun a => by simp⟩
  rcases frameReceived_cases { src := src, tgt := tgt, body := .ask sel } (askAtEob tgt sel) s with h | h
  · exact h.toAddressKept
  · rw [askReceived, h]
    exact ((keepsAddress_mainDelivered _ s).toAddressKept.trans (hasked _)).trans (keepsAddress_linkHandOff _ _).toAddressKept

/-! ### Every command -/

/-- What the command `c` does to the own address (R91, R95, R99, R101, R102): it keeps it, also where it clears entries or marks
(R177, R178); it resets; it ends loading; or, being one that can, it has the address yielded or taken. -/
inductive AddressStep (c : Instr) (s t : State) : Prop where
  | kept (h : KeepsAddress s t)
  | cleared (hc : c = .ownReplyComplete ∨ ∃ src tgt, mainPart c = some ⟨src, tgt, .ask 0x02⟩) (h : AddressKept s t)
  | reset (hc : c = .reset) (h : t = resetState s)
  | loaded (hc : c = .endOfLoading) (hn : s.csto.loaded = none) (h : t = endOfLoading (loadParams s.csto.array) s)
  | yielded (a : Addr) (hc : c = .frameEof ∨ c = .busStuckClear ∨ YieldsAtEob a c s) (h : Yielded a s t)
  | taken (a : Addr) (hc : c = .frameEof ∨ c = .busStuckClear) (h : Taken a s t)

theorem AddressStep.of_decided {c : Instr} {s t : State} (hc : c = .frameEof ∨ c = .busStuckClear) (h : AddressDecided s t) :
    AddressStep c s t := by
  rcases h with h | ⟨a, h⟩ | ⟨a, h⟩
  · exact .kept h
  · exact .yielded a (hc.imp_right .inl) h
  · exact .taken a hc h

theorem exec_address {c : Instr} {s t : State} (h : exec c s = .next t) : AddressStep c s t := by
  cases c with
  | reset => exact .reset rfl (Host.Outcome.next.inj h).symm
  | endOfLoading =>
    refine whenLive_next h (.kept (.refl s)) ?_
    split
    next hn => exact .loaded rfl (by simpa using hn) rfl
    next => exact .kept (.refl s)
  | stakeReceived src tgt uid mode =>
    refine whenLive_next h (.kept (.refl s)) ?_
    rcases stakeReceived_decided src tgt uid mode s with hk | ⟨a, hc, hy⟩
    · exact .kept hk
    · exact .yielded a (.inr (.inr hc)) hy
  | statusClear src tgt =>
    exact whenLive_next h (.kept (.refl s)) (.cleared (.inr ⟨src, tgt, rfl⟩) (addressKept_askReceived _ _ _ s))
  | unknownSelector src tgt sel =>
    refine whenLive_next h (.kept (.refl s)) ?_
    by_cases hsel : sel = 0x02
    · exact .cleared (.inr ⟨src, tgt, by rw [hsel]; rfl⟩) (addressKept_askReceived _ _ _ s)
    · exact .kept (keepsAddress_askReceived hsel _ _ s)
  | ownReplyComplete => exact whenLive_next h (.kept (.refl s)) (.cleared (.inl rfl) (addressKept_ownReply s))
  | frameEof => exact whenLive_next h (.kept (.refl s)) (.of_decided (.inl rfl) (frameEof_decided s))
  | busStuckClear => exact whenLive_next h (.kept (.refl s)) (.of_decided (.inr rfl) (busStuckClear_decided s))
  | _ => exact .kept (exec_keepsAddress rfl h)

/-! ### RESET and the end of loading -/

theorem Ptab.reset_get (a : Addr) : Ptab.reset.slots.get a = .empty := by
  revert a
  decide

/-- At reset there is no own address and no SELF slot (R107, R125). -/
theorem resetState_addressInv (s : State) : AddressInv (resetState s) := by
  refine ⟨iff_of_true rfl rfl, iff_of_false (by simp [resetState, Sid.reset]) (by simp [resetState, Sid.reset]), fun a => ?_⟩
  have hslot : (resetState s).ptab.slots.get a = .empty := Ptab.reset_get a
  rw [hslot]
  exact iff_of_false (by simp) (by simp [resetState, Sid.reset])

theorem endOfLoading_sid (p : Params) (s : State) :
    (endOfLoading p s).sid = { s.sid with listen := some 0, st := .listen } := by
  rw [endOfLoading_eq, settle_sid, loadingTaken_sid]

theorem endOfLoading_slots (p : Params) (s : State) : (endOfLoading p s).ptab.slots = s.ptab.slots := by
  rw [endOfLoading_eq, settle_ptab]
  simp [loadingTaken, listenStart, changeIdentity_ptab]

/-- Loading ends LOAD, in which no address is held (R91). -/
theorem endOfLoading_addressInv {s : State} (p : Params) (hn : s.csto.loaded = none) (h : AddressInv s) :
    AddressInv (endOfLoading p s) := by
  obtain ⟨hload, hrun, hself⟩ := h
  have hnone : ¬s.sid.own.isSome := by
    rw [hrun, hload.mpr hn]
    decide
  unfold AddressInv
  rw [endOfLoading_sid, endOfLoading_csto, endOfLoading_slots]
  exact ⟨by simp, iff_of_false hnone (by simp), hself⟩

theorem exec_addressInv {c : Instr} {s t : State} (hs : AddressInv s) (h : exec c s = .next t) : AddressInv t := by
  rcases exec_address h with hk | ⟨-, hk⟩ | ⟨-, rfl⟩ | ⟨-, hn, rfl⟩ | ⟨a, -, hy⟩ | ⟨a, -, ht⟩
  · exact hk.toAddressKept.addressInv hs
  · exact hk.addressInv hs
  · exact resetState_addressInv s
  · exact endOfLoading_addressInv _ hn hs
  · exact hy.addressInv hs
  · exact ht.addressInv hs

/-- Settles O48: a command keeps the address, yields it with its slot emptied, takes it with its slot SELF, or starts anew. -/
theorem addressInvariantKept : Obligations.AddressInvariantKept := by
  unfold Obligations.AddressInvariantKept
  intro s t hs h
  rcases step_cases h with rfl | rfl | ⟨c, rest, h⟩
  · exact hs
  · exact hs
  · exact exec_addressInv (s := s.setPending rest) hs h

/-- Settles O59: of the ways in which a command moves the own address, a yield alone takes it away and a claim alone gives it. -/
theorem ownAddressComesFromTheClaim : Obligations.OwnAddressComesFromTheClaim := by
  unfold Obligations.OwnAddressComesFromTheClaim
  intro c s t a hs h
  rcases exec_address h with hk | ⟨-, hk⟩ | ⟨rfl, rfl⟩ | ⟨-, -, rfl⟩ | ⟨b, hc, hy⟩ | ⟨b, hc, ht⟩
  · rw [hk.own]
    exact ⟨absurd, absurd⟩
  · rw [hk.own]
    exact ⟨absurd, absurd⟩
  · exact ⟨nofun, fun _ _ => ⟨rfl, .inl rfl⟩⟩
  · have hown : (endOfLoading (loadParams s.csto.array) s).sid.own = s.sid.own := by rw [endOfLoading_sid]
    rw [hown]
    exact ⟨absurd, absurd⟩
  · refine ⟨fun ht => by simp [hy.own] at ht, fun ho _ => ?_⟩
    obtain rfl : b = a := Option.some.inj (hy.wasHeld.2.symm.trans ho)
    exact ⟨hy.own, .inr ⟨hc, hy.st, hy.slot, hy.arisen.1⟩⟩
  · obtain ⟨hst, hcandidate⟩ := ht.wasClaimed
    obtain ⟨-, hrun, -⟩ := hs
    have hnone : ¬s.sid.own.isSome := by
      rw [hrun, hst]
      decide
    refine ⟨fun hown _ => ?_, fun ho => absurd (by simp [ho]) hnone⟩
    obtain rfl : b = a := Option.some.inj (ht.held.2.symm.trans hown)
    exact ⟨hc, hst, hcandidate⟩

/-! ### Completion -/

theorem exec_next (c : Instr) (s : State) : ∃ t, exec c s = .next t := by cases c <;> exact ⟨_, rfl⟩

/-- Settles O2: every command has a next state, in which queue and UID are as they were. -/
theorem everyCommandCompletes : Obligations.EveryCommandCompletes := by
  unfold Obligations.EveryCommandCompletes
  intro c s
  obtain ⟨t, h⟩ := exec_next c s
  refine ⟨t, h, ?_⟩
  rcases exec_address h with hk | ⟨-, hk⟩ | ⟨-, rfl⟩ | ⟨-, -, rfl⟩ | ⟨a, -, hy⟩ | ⟨a, -, ht⟩
  · exact ⟨hk.part.pending, hk.part.uid⟩
  · exact ⟨hk.part.pending, hk.part.uid⟩
  · exact ⟨rfl, rfl⟩
  · exact ⟨by simp, by rw [endOfLoading_sid]⟩
  · exact ⟨hy.part.pending, hy.part.uid⟩
  · exact ⟨ht.part.pending, ht.part.uid⟩

end Sys2Proof.Machine
end

section
/-! SUPPORT. The state at reset, and the entries that every command lets arise and keeps: O55, O58. -/

namespace Sys2Proof.Machine

/-! ### The state at reset -/

/-- A reset of the state at reset leaves it. -/
theorem resetState_reset : resetState State.reset = State.reset := rfl

theorem reset_storeInv : StoreInv State.reset := ⟨reset_array_wf, trivial⟩

theorem reset_faultLineInv : FaultLineInv State.reset := (faultLineInv_iff _).mpr rfl

theorem reset_rawSetInv : RawSetInv State.reset := by
  change (0x0001 : EventSet) = State.reset.conditions
  decide

theorem reset_gainInv : GainInv State.reset := by
  refine ⟨nofun, ?_, nofun⟩
  simp [rgbWithin, State.reset, Tge.reset, Rgb.all]

/-- Nothing is sent, nothing waits to be, and the receiver is in HUNT (R69, R89). -/
theorem reset_sendInv : SendInv State.reset :=
  ⟨nofun, iff_of_true rfl rfl, fun _ => ⟨rfl, rfl⟩, nofun, nofun, nofun, fun _ => rfl⟩

theorem reset_agesInv : AgesInv State.reset := fun a => by
  have hslot : State.reset.ptab.slots.get a = .empty := Ptab.reset_get a
  rw [hslot]
  trivial

theorem reset_countsInv : CountsInv State.reset := ⟨by decide, by decide, by decide⟩

theorem reset_askInv : AskInv State.reset := ⟨rfl, rfl, nofun, nofun, rfl, fun _ => rfl⟩

/-- The fused UID is one that R90 allows. -/
theorem reset_uid : State.reset.sid.uid ≠ 0 ∧ State.reset.sid.uid ≠ BitVec.allOnes 64 := by
  obtain ⟨huid, hlt⟩ := Config.fusedUid_toNat
  refine ⟨fun h => ?_, fun h => ?_⟩
  · have hzero := huid.symm.trans (congrArg BitVec.toNat h)
    simp at hzero
  · have hones := huid.symm.trans (congrArg BitVec.toNat h)
    rw [BitVec.toNat_allOnes] at hones
    omega

/-- Settles O55, invariant by invariant. -/
theorem invariantsHoldAtReset : Obligations.InvariantsHoldAtReset := by
  unfold Obligations.InvariantsHoldAtReset
  rw [← resetState_reset]
  exact ⟨reset_storeInv, reset_faultLineInv, reset_rawSetInv, resetState_ownFlagsInv _, resetState_addressInv _, reset_sendInv,
    temperatureInv_resetState _, resetState_estimateInv _, reset_gainInv, senseDriveInv_resetState _, reset_agesInv,
    reset_countsInv, reset_askInv, resetState_engineInv _, reset_uid⟩

/-! ### Entries at the end of loading and at an own reply -/

theorem gains_eventsStart (p : Params) (x : State) :
    x.evu.Gains (eventsStart p x).evu ∧ (p.setDefault = true → (eventsStart p x).evu.Arisen 5) := by
  have hmask : x.evu.Gains { x.evu with mask := p.faultMask } := ⟨fun _ => id, fun _ => id, (Evu.Gains.refl x.evu).rises⟩
  refine ⟨hmask.trans (Evu.gains_take _ _ _), fun h => ?_⟩
  rw [eventsStart, if_pos h]
  exact Evu.take_pulses (by decide)

/-- At the end of loading SET_DEFAULT arises where the copy has it (R164, R179). -/
theorem endOfLoading_evu (p : Params) (s : State) :
    s.evu.Gains (endOfLoading p s).evu ∧ (p.setDefault = true → (endOfLoading p s).evu.Arisen 5) := by
  have hstarted (x : State) : x.evu.Gains (listenStart x).evu := by
    simp only [listenStart, changeIdentity, handEvents_evu, askUpdate_frame]
    exact x.evu.gains_take _ _
  dsimp only [endOfLoading]
  generalize hx : (((s.setCsto { s.csto with loaded := some p }).setTmon (s.tmon.load p)).setLest
    (s.lest.thermal p.chars (s.tmon.load p).tf)).setSseq (s.sseq.load p (s.tmon.load p).tfault) = x
  obtain ⟨hgains, harises⟩ := gains_eventsStart p (gainsStart p (listenStart x))
  have hsettled := (keepsAddress_settle (eventsStart p (gainsStart p (listenStart x)))).events
  have hx : x.evu = s.evu := by rw [← hx]; rfl
  rw [gainsStart_evu] at hgains
  rw [← hx]
  exact ⟨((hstarted x).trans hgains).trans hsettled, fun h => hsettled.arisen (harises h)⟩

/-- The own reply's completion can clear latched entries alone (R178). -/
theorem ownReply_evu (s : State) :
    (ownReply s).evu.raw = s.evu.raw ∧ (ownReply s).evu.marks = s.evu.marks ∧ (ownReply s).sid.reassert = s.sid.reassert := by
  have hdone (x : Sending) (y : State) : (replyDone x y).evu.raw = y.evu.raw ∧ (replyDone x y).evu.marks = y.evu.marks ∧
      (replyDone x y).sid.reassert = y.sid.reassert := by
    unfold replyDone
    split <;> exact ⟨rfl, rfl, rfl⟩
  unfold ownReply
  split
  · split
    · exact hdone _ _
    · exact ⟨rfl, rfl, rfl⟩
  · exact ⟨rfl, rfl, rfl⟩

/-! ### Entries at a STATUS_CLEAR capture (R177) -/

theorem mainDelivered_fc (f : Frame) (s : State) : (mainDelivered f s).fc = s.fc.validMain false := by
  simp [mainDelivered, receiveMain_fc]

theorem mainDelivered_st (f : Frame) (s : State) : (mainDelivered f s).sid.st = s.sid.st := by
  obtain ⟨hsid, -⟩ := duplicateTest_keeps f.src (receiveMain f s)
  unfold mainDelivered deliver
  split
  · have htable (x : State) : (deliverToTable f x).sid = x.sid := by simp
    rw [htable, hsid]
    simp
  · simp

theorem conditions_congr {s t : State} (hm : t.tmon = s.tmon) (hq : t.sseq = s.sseq) (hc : t.csto = s.csto) (he : t.tge = s.tge)
    (hb : t.ftb = s.ftb) (hf : t.fc = s.fc) (hst : t.sid.st = s.sid.st) : t.conditions = s.conditions := by
  unfold State.conditions
  rw [hm, hq, hc, he, hb, hf, hst]

/-- Of what the conditions read, the delivery of a main part moves fault confinement alone. -/
theorem mainDelivered_conditions (f : Frame) (s : State) :
    (mainDelivered f s).conditions = (s.setFc (s.fc.validMain false)).conditions :=
  conditions_congr (by simp [mainDelivered]) (by simp [mainDelivered]) (by simp [mainDelivered]) (by simp [mainDelivered])
    (by simp [mainDelivered]) (mainDelivered_fc f s) (mainDelivered_st f s)

/-- From a raw set that was true, a main part that leaves the link ACTIVE lets no level event arise (R148). -/
theorem mainDelivered_rises_none {f : Frame} {s : State} (hraw : RawSetInv s) (hlink : s.fc.link = .active) {k : Nat}
    (h : (mainDelivered f s).conditions.getLsbD k = true) : s.evu.raw.getLsbD k = true := by
  have hnone := congrArg (BitVec.getLsbD · k) (conditions_recFalls s)
  rw [mainDelivered_conditions, Fc.validMain_active hlink] at h
  have hk := BitVec.lt_of_getLsbD h
  rw [hraw]
  simpa [h, hk] using hnone

/-- The capture clears marks alone (R83, R177). -/
theorem giveAnswer_events (sel : Byte) (s : State) :
    (giveAnswer sel s).evu.raw = s.evu.raw ∧ (giveAnswer sel s).evu.latched = s.evu.latched := by
  rw [giveAnswer_evu]
  split <;> exact ⟨rfl, rfl⟩

/-- What STATUS_CLEAR leaves of the announcement: no latched entry goes, a duplicate is latched, and from a raw set that was true a
level event that rises has arisen (R103, R174, R177). -/
def AnnouncedBeforeCapture (s t : State) : Prop :=
  (∀ k, s.evu.latched.getLsbD k = true → t.evu.latched.getLsbD k = true) ∧
    (s.sid.reassert = false → t.sid.reassert = true → t.evu.latched.getLsbD 15 = true) ∧
    (RawSetInv s → ∀ k, s.evu.raw.getLsbD k = false → t.evu.raw.getLsbD k = true → t.evu.Arisen k)

theorem KeepsAddress.announcedBeforeCapture {s t : State} (h : KeepsAddress s t) : AnnouncedBeforeCapture s t :=
  ⟨h.events.latched, fun h0 h1 => (h.duplicate h0 h1).1, fun _ => h.events.rises⟩

/-- No level event rises before the marks are cleared (log 12). -/
theorem askReceived_announced (src tgt sel : Byte) (s : State) : AnnouncedBeforeCapture s (askReceived src tgt sel s) := by
  have hdelivered := keepsAddress_mainDelivered { src := src, tgt := tgt, body := .ask sel } s
  have hraw {k : Nat} := mainDelivered_rises_none (f := { src := src, tgt := tgt, body := .ask sel }) (s := s) (k := k)
  have hfc := mainDelivered_fc { src := src, tgt := tgt, body := .ask sel } s
  rcases frameReceived_cases { src := src, tgt := tgt, body := .ask sel } (askAtEob tgt sel) s with h | h
  · exact h.announcedBeforeCapture
  rw [askReceived, h]
  generalize mainDelivered { src := src, tgt := tgt, body := .ask sel } s = x at *
  unfold askAtEob
  split
  next o _ =>
    split
    next hreply =>
      simp only [Bool.and_eq_true, mayReply_iff] at hreply
      obtain ⟨⟨hlink, -⟩, -⟩ := hreply
      obtain ⟨hsame, hlatched⟩ := giveAnswer_events sel x
      have hkept (k : Nat) (hk : x.evu.latched.getLsbD k = true) :
          (handEvents 0 (giveAnswer sel x)).evu.latched.getLsbD k = true :=
        (Evu.take_keeps _ _ 0 k).1 (by rw [hlatched]; exact hk)
      rw [linkHandOff_holder hlink (by simpa using hfc)]
      refine ⟨fun k hk => hkept k (hdelivered.events.latched k hk), fun h0 h1 => hkept 15 (hdelivered.duplicate h0 ?_).1,
        fun hs k h0 h1 => ?_⟩
      · simpa using h1
      · rw [handEvents_raw, handEvents_conditions, giveAnswer_conditions] at h1
        rw [hraw hs hlink h1] at h0
        cases h0
    next => exact (hdelivered.trans (keepsAddress_linkHandOff _ _)).announcedBeforeCapture
  next => exact (hdelivered.trans (keepsAddress_linkHandOff _ _)).announcedBeforeCapture

/-! ### Every command -/

/-- What a command that clears no entry and no mark does, in the terms of O58 (R101, R103, R164, R174). -/
structure Announced (s t : State) : Prop where
  events : s.evu.Gains t.evu
  setDefault : ∀ p, s.csto.loaded = none → t.csto.loaded = some p → p.setDefault = true → t.evu.Arisen 5
  yield : s.sid.own.isSome → t.sid.own = none → t.evu.Arisen 13
  duplicate : s.sid.reassert = false → t.sid.reassert = true → t.evu.Arisen 15

theorem SamePart.noSetDefault {s t : State} (h : SamePart s t) (p : Params) (h0 : s.csto.loaded = none)
    (h1 : t.csto.loaded = some p) : False := by
  rw [h.loaded, h0] at h1
  cases h1

theorem AddressKept.noYield {s t : State} (h : AddressKept s t) (h0 : s.sid.own.isSome) (h1 : t.sid.own = none) : False := by
  rw [← h.own, h1] at h0
  cases h0

theorem KeepsAddress.announced {s t : State} (h : KeepsAddress s t) : Announced s t :=
  ⟨h.events, fun p h0 h1 => (h.part.noSetDefault p h0 h1).elim, fun h0 h1 => (h.noYield h0 h1).elim, h.duplicate⟩

theorem Yielded.announced {a : Addr} {s t : State} (h : Yielded a s t) : Announced s t :=
  ⟨h.events, fun p h0 h1 => (h.part.noSetDefault p h0 h1).elim, fun _ _ => h.arisen, h.duplicate⟩

theorem Taken.announced {a : Addr} {s t : State} (h : Taken a s t) : Announced s t :=
  ⟨h.events, fun p h0 h1 => (h.part.noSetDefault p h0 h1).elim, fun _ h1 => by simp [h.held.2] at h1, h.duplicate⟩

theorem endOfLoading_announced (p : Params) (s : State) : Announced s (endOfLoading p s) := by
  obtain ⟨hgains, hdefault⟩ := endOfLoading_evu p s
  refine ⟨hgains, fun q _ h1 hq => hdefault ?_, fun h0 h1 => ?_, fun h0 h1 => ?_⟩
  · rw [endOfLoading_csto] at h1
    rwa [Option.some.inj h1]
  · rw [endOfLoading_sid] at h1
    simp [show s.sid.own = none from h1] at h0
  · rw [endOfLoading_sid] at h1
    rw [show s.sid.reassert = true from h1] at h0
    cases h0

/-- Every command but RESET announces what it brings about, but for the two that can clear: an own reply, and STATUS_CLEAR. -/
theorem exec_announced {c : Instr} {s t : State} (h : exec c s = .next t) (hc : c ≠ .reset) :
    Announced s t ∨
      AddressKept s t ∧ (c = .ownReplyComplete ∨ ∃ src tgt, mainPart c = some ⟨src, tgt, .ask 0x02⟩) := by
  rcases exec_address h with hk | ⟨hclears, hk⟩ | ⟨hreset, -⟩ | ⟨-, -, rfl⟩ | ⟨a, -, hy⟩ | ⟨a, -, ht⟩
  · exact .inl hk.announced
  · exact .inr ⟨hk, hclears⟩
  · exact absurd hreset hc
  · exact .inl (endOfLoading_announced _ s)
  · exact .inl hy.announced
  · exact .inl ht.announced

/-- The own reply's completion: of raw set, marks and re-assertion none moves. -/
theorem exec_ownReply_evu {s t : State} (h : exec .ownReplyComplete s = .next t) :
    t.evu.raw = s.evu.raw ∧ t.evu.marks = s.evu.marks ∧ t.sid.reassert = s.sid.reassert :=
  whenLive_next (P := fun u => u.evu.raw = s.evu.raw ∧ u.evu.marks = s.evu.marks ∧ u.sid.reassert = s.sid.reassert) h
    ⟨rfl, rfl, rfl⟩ (ownReply_evu s)

/-- While the reset line is held a main part changes nothing (log 5). -/
theorem exec_mainPart_held {c : Instr} {f : Frame} {s : State} (hc : mainPart c = some f) (hr : s.pins.resetHeld = true) :
    exec c s = .next s := by
  cases c with
  | reset | resetRelease => cases hc
  | _ => exact whenLive_of_held hr

/-- The commands that bring an ASK in, in reset too. -/
theorem exec_ask_gated {c : Instr} {src tgt sel : Byte} (s : State) (hc : mainPart c = some ⟨src, tgt, .ask sel⟩) :
    exec c s = whenLive s (askReceived src tgt sel s) := by
  cases hr : s.pins.resetHeld with
  | false => rw [exec_ask hc hr, whenLive_of_live hr]
  | true => rw [exec_mainPart_held hc hr, whenLive_of_held hr]

/-- Settles O58: what clears no entry announces what it brings about; the own reply and STATUS_CLEAR are what can clear. -/
theorem latchedEntriesPersist : Obligations.LatchedEntriesPersist := by
  unfold Obligations.LatchedEntriesPersist
  intro c s t h hc
  rcases exec_announced h hc with ha | ⟨hk, rfl | ⟨src, tgt, hask⟩⟩
  case inl =>
    exact ⟨fun _ => ha.events.rises, ha.setDefault, ha.yield,
      fun h0 h1 => ⟨(ha.duplicate h0 h1).1, fun _ => (ha.duplicate h0 h1).2⟩, fun _ => ha.events.latched,
      fun _ => ha.events.marks⟩
  case inr.inl =>
    obtain ⟨hraw, hmarks, hreassert⟩ := exec_ownReply_evu h
    refine ⟨fun _ k h0 h1 => ?_, fun p h0 h1 => (hk.part.noSetDefault p h0 h1).elim, fun h0 h1 => (hk.noYield h0 h1).elim,
      fun h0 h1 => ?_, fun hn => absurd rfl hn, fun _ k hm => by rwa [hmarks]⟩
    · rw [hraw, h0] at h1
      cases h1
    · rw [hreassert, h0] at h1
      cases h1
  case inr.inr =>
    obtain ⟨hlatched, hduplicate, hrises⟩ := whenLive_next (P := AnnouncedBeforeCapture s) ((exec_ask_gated s hask).symm.trans h)
      (KeepsAddress.refl s).announcedBeforeCapture (askReceived_announced src tgt 0x02 s)
    exact ⟨hrises, fun p h0 h1 => (hk.part.noSetDefault p h0 h1).elim, fun h0 h1 => (hk.noYield h0 h1).elim,
      fun h0 h1 => ⟨hduplicate h0 h1, fun hn => absurd hask (hn src tgt)⟩, fun _ => hlatched, fun hn => absurd hask (hn src tgt)⟩

end Sys2Proof.Machine
end

section
/-! SUPPORT. The end of listening and a silence expiry: O41, O43. -/

namespace Sys2Proof.Machine

/-! ### The end of listening (R92) -/

theorem conditions_unaddressed (s : State) : s.conditions.getLsbD 14 = decide (s.sid.st = .unaddressed) := by
  simp only [State.conditions, BitVec.getLsbD_or, entryIf_getLsbD (show 14 < 16 by decide)]
  simp

/-- A claim from the seed ends with its identity state told to the event unit (R106). -/
theorem claimFromSeed_rawSetInv (s : State) : RawSetInv (claimFromSeed s) :=
  (eventsFollow_chooseCandidate _ _ (claimEntered s)).1 (handEvents_raw 0 _)

/-- With no slot EMPTY a claim in ACTIVE ends with an empty STAKE slot kept empty (R94, R105). -/
theorem claimFromSeed_stake_none {s : State} (hl : s.fc.link = .active) (hst : s.sid.st ≠ .run) (hstake : s.slc.stake = .empty)
    (hall : ∀ a : Addr, s.ptab.slots.get a ≠ .empty) : (claimFromSeed s).slc.stake.content = none := by
  have hnone : (claimEntered s).ptab.firstFree (seedOf s.sid.uid) true = none :=
    Ptab.firstFree_eq_none _ _ fun a => by rw [claimEntered_slots]; exact hall a
  obtain ⟨-, hended⟩ := chooseCandidate_choiceMade (z := claimEntered s) (by rw [claimEntered_link, hl])
    (by simp [claimEntered_sid]) (seedOf s.sid.uid) true
  rw [← claimFromSeed_eq, Ptab.firstFree_congr ((claimFromSeed_slots s).trans (claimEntered_slots s).symm)] at hended
  rw [(hended hnone).2 (by rw [claimEntered_slc hst, hstake])]
  rfl

/-- Settles O41: the end of listening is a claim from the seed. -/
theorem listenEndStakesFromTheSeed : Obligations.ListenEndStakesFromTheSeed := by
  unfold Obligations.ListenEndStakesFromTheSeed
  intro s p n hlive hloaded hst hlisten hlimit hstake
  have hperiod : s.period = p.period := by simp only [State.period, hloaded]
  have hclaim : listenEnd s = claimFromSeed s := by simp [listenEnd, hlisten, hst, hperiod, hlimit]
  have hrun : s.sid.st ≠ .run := by simp [hst]
  have hclaims : ClaimsFromSeed s (claimFromSeed s) := claimFromSeed_claims rfl rfl hrun hstake
  unfold ClaimsFromSeed at hclaims
  rw [claimFromSeed_slots] at hclaims
  obtain ⟨hattempts, hlistens, hactive, hwaits⟩ := hclaims
  refine ⟨claimFromSeed s, (whenLive_of_live hlive).trans (congrArg _ hclaim), hattempts, hlistens, claimFromSeed_slots s,
    fun hl => ⟨(hactive hl).1, fun hall => ?_⟩, hwaits, fun b hb => ?_⟩
  · obtain ⟨hunaddressed, hcandidate⟩ := (hactive hl).2 hall
    refine ⟨hunaddressed, hcandidate, claimFromSeed_stake_none hl hrun hstake hall, ?_⟩
    rw [claimFromSeed_rawSetInv, conditions_unaddressed, hunaddressed]
    rfl
  · cases b <;> simp_all [SameBlock]

/-! ### A silence expiry (R153) -/

theorem Fc.silence_eq {f : Fc} {e : Nat} (h : f.silenceTimer = some e) : f.silence =
    { f with tec := 0, recCount := 0, silenceTimer := some (e + 500000), link := if f.link = .quiet then .active else f.link } := by
  simp [Fc.silence, h, afterMs]

/-- Settles O43: the counts, and the hand-off of a link state that QUIET alone changes. -/
theorem silenceClearsTheCounts : Obligations.SilenceClearsTheCounts := by
  unfold Obligations.SilenceClearsTheCounts
  intro s e hlive htimer
  have hfc := (confine_fc Fc.silence s).trans (Fc.silence_eq htimer)
  have hraw : (confine Fc.silence s).evu.raw = (confine Fc.silence s).conditions := linkHandOff_raw _ _
  refine ⟨confine Fc.silence s, whenLive_of_live hlive, hfc, ?_, ?_, fun hquiet => ?_, fun hquiet => ?_, fun b hb => ?_⟩
  · rw [hraw, conditions_noisy, hfc]
    rfl
  · rw [hraw, conditions_quiet, hfc]
    dsimp only
    split
    · rfl
    next hq => exact decide_eq_false hq
  · refine confine_returned (by simp [hquiet]) ?_
    rw [Fc.silence_eq htimer]
    simp [hquiet]
  · have hsame : confine Fc.silence s = handEvents 0 (s.setFc s.fc.silence) := by
      refine linkHandOff_same ?_
      rw [State.setFc_fc, Fc.silence_eq htimer]
      simp [hquiet]
    rw [hsame]
    exact ⟨rfl, rfl, rfl⟩
  · cases b <;> simp_all [SameBlock]

end Sys2Proof.Machine
end

section
/-! SUPPORT. A main part from the own address, of any kind and in any link state: O27. -/

namespace Sys2Proof.Machine

/-! ### DUP_ADDRESS is a pulse -/

theorem conditions_duplicate (s : State) : s.conditions.getLsbD 15 = false := by
  simp only [State.conditions, BitVec.getLsbD_or, entryIf_getLsbD (show 15 < 16 by decide)]
  simp

/-- The conditions alone never latch DUP_ADDRESS. -/
theorem Evu.take_duplicate (e : Evu) (s : State) : (e.take s.conditions 0).latched.getLsbD 15 = e.latched.getLsbD 15 := by
  rw [Evu.take_latched, BitVec.getLsbD_or, BitVec.getLsbD_or, BitVec.getLsbD_and, conditions_duplicate]
  simp

theorem handEvents_duplicate (s : State) : (handEvents 0 s).evu.latched.getLsbD 15 = s.evu.latched.getLsbD 15 :=
  Evu.take_duplicate s.evu s

/-! ### What a kind's handling at the EOB leaves -/

/-- Of what the duplicate test has done, the handling at the EOB moves nothing: identity, STAKE slot, open window, DUP_ADDRESS. -/
structure LeavesTest (x y : State) : Prop where
  sid : y.sid = x.sid
  stake : y.slc.stake = x.slc.stake
  phase : y.slc.phase = x.slc.phase
  window : y.slc.window = x.slc.window
  fc : y.fc = x.fc
  duplicate : y.evu.latched.getLsbD 15 = x.evu.latched.getLsbD 15
  changes : OnlyChanges [.slc, .lest, .tge, .csto, .evu] x y

theorem LeavesTest.refl (x : State) : LeavesTest x x := ⟨rfl, rfl, rfl, rfl, rfl, rfl, fun b _ => by cases b <;> rfl⟩

theorem LeavesTest.trans {x y z : State} (h : LeavesTest x y) (k : LeavesTest y z) : LeavesTest x z :=
  ⟨k.sid.trans h.sid, k.stake.trans h.stake, k.phase.trans h.phase, k.window.trans h.window, k.fc.trans h.fc,
    k.duplicate.trans h.duplicate, h.changes.trans k.changes⟩

theorem leavesTest_ite {p : Prop} [Decidable p] {x y z : State} (hy : LeavesTest x y) (hz : LeavesTest x z) :
    LeavesTest x (if p then y else z) := by
  split
  · exact hy
  · exact hz

theorem leavesTest_setSlc {x : State} {l : Slc} (hstake : l.stake = x.slc.stake) (hphase : l.phase = x.slc.phase)
    (hwindow : l.window = x.slc.window) : LeavesTest x (x.setSlc l) :=
  ⟨rfl, hstake, hphase, hwindow, rfl, rfl, (onlyChanges_setSlc x l).mono (by simp)⟩

theorem leavesTest_setCsto (x : State) (c : Csto) : LeavesTest x (x.setCsto c) :=
  ⟨rfl, rfl, rfl, rfl, rfl, rfl, (onlyChanges_setCsto x c).mono (by simp)⟩

theorem leavesTest_settle (x : State) : LeavesTest x (settle x) := by
  have hslc := settle_slc_fields x
  refine ⟨by simp, by rw [hslc], by rw [hslc], by rw [hslc], by simp, ?_, fun b hb => by cases b <;> simp_all [SameBlock]⟩
  rw [settle_evu, Evu.take_duplicate]

theorem leavesTest_musterReplyStart (start : Byte) (k : LinkState) (x : State) : LeavesTest x (musterReplyStart start k x) := by
  unfold musterReplyStart
  split
  · exact leavesTest_ite (leavesTest_setSlc rfl rfl rfl) (.refl x)
  · exact .refl x

theorem leavesTest_giveAnswer (sel : Byte) (x : State) : LeavesTest x (giveAnswer sel x) := by
  have hslc := giveAnswer_slc sel x
  refine ⟨by simp, by rw [hslc]; rfl, by rw [hslc]; rfl, by rw [hslc]; rfl, by simp, ?_,
    fun b hb => by cases b <;> simp_all [SameBlock]⟩
  rw [(giveAnswer_events sel x).2]

theorem leavesTest_askAtEob (tgt sel : Byte) (k : LinkState) (x : State) : LeavesTest x (askAtEob tgt sel k x) := by
  unfold askAtEob
  split
  · exact leavesTest_ite (leavesTest_giveAnswer sel x) (.refl x)
  · exact .refl x

theorem leavesTest_fixtureAtEob (tgt code : Byte) (args : List Byte) (k : LinkState) (x : State) :
    LeavesTest x (fixtureAtEob tgt code args k x) := by
  unfold fixtureAtEob
  split
  · refine leavesTest_ite ?_ (.refl x)
    have hstored := leavesTest_setCsto x (x.csto.fixture code args).1
    exact leavesTest_ite (hstored.trans (leavesTest_setSlc rfl rfl rfl)) hstored
  · exact .refl x

/-- A STAKE that makes no holder yield is contested or left (R97, R98). -/
theorem leavesTest_stakeAtEob {tgt : Byte} {uid : BitVec 64} {mode : Byte} {k : LinkState} {x : State}
    (h : ∀ o, x.sid.own = some o → k = .active → tgt = addrByte o → contests (stakeModeOf mode) uid x.sid.uid = true) :
    LeavesTest x (stakeAtEob tgt uid mode k x) := by
  unfold stakeAtEob
  split
  next o ho =>
    split
    next hreply =>
      simp only [Bool.and_eq_true, mayReply_iff, decide_eq_true_eq] at hreply
      obtain ⟨⟨hk, -⟩, htgt⟩ := hreply
      rw [if_pos (h o ho hk htgt)]
      exact leavesTest_setSlc rfl rfl rfl
    next => exact .refl x
  next => exact .refl x

/-- The link state handed on after it leaves it too, in a station that is not a claimant. -/
theorem linkHandOff_leavesTest {old : LinkState} {y : State} (hst : y.sid.st ≠ .claiming)
    (hlink : old ≠ .active ∨ y.fc.link = old) :
    (linkHandOff old y).sid = y.sid ∧ (linkHandOff old y).slc = { y.slc with ask := (linkHandOff old y).slc.ask } ∧
      (linkHandOff old y).evu.latched.getLsbD 15 = y.evu.latched.getLsbD 15 := by
  refine ⟨linkHandOff_sid_notClaiming hst, ?_⟩
  by_cases hs : y.fc.link = old
  · rw [linkHandOff_same hs]
    exact ⟨rfl, handEvents_duplicate y⟩
  · have hchosen : linkChosen (linkTaken old y) = linkTaken old y := linkChosen_none (.inl (by rwa [linkTaken_sid]))
    rw [linkHandOff_changed hs, hchosen, handEvents_duplicate, linkTaken_evu]
    exact ⟨linkTaken_slc (hlink.resolve_right hs) y, rfl⟩

/-! ### The duplicate test at the delivery -/

/-- What the delivery of the main part `f` from the own address `o` has done in RUN (R63, R103). -/
structure TestDone (f : Frame) (o : Addr) (s x : State) : Prop where
  sid : x.sid = { s.sid with reassert := true }
  opened : WindowOpened f false x
  arises : s.sid.reassert = false → x.evu.latched.getLsbD 15 = true
  fills : s.sid.reassert = false → s.slc.stake = .empty → x.slc.stake = ⟨some ⟨o, .held, s.sid.uid⟩, false, none⟩
  merges : s.sid.reassert = true → x.slc.stake = s.slc.stake ∧ x.evu.latched.getLsbD 15 = s.evu.latched.getLsbD 15

theorem signOfLife_slc (v : Byte) (s : State) : (signOfLife v s).slc = { s.slc with ask := (signOfLife v s).slc.ask } := by
  unfold signOfLife
  split
  · exact actOnSlot_slc _ _ s
  · rfl

theorem deliverToTable_slc (f : Frame) (s : State) :
    (deliverToTable f s).slc = { s.slc with ask := (deliverToTable f s).slc.ask } := by
  unfold deliverToTable
  split
  · split
    · exact actOnSlot_slc _ _ s
    · rfl
  · exact signOfLife_slc _ s
  · exact signOfLife_slc _ s
  · exact signOfLife_slc _ s
  · rfl

theorem receiveMain_duplicate (f : Frame) (s : State) :
    (receiveMain f s).evu.latched.getLsbD 15 = s.evu.latched.getLsbD 15 := handEvents_duplicate _

theorem stakeDelivered_testDone {f : Frame} {o : Addr} {s : State} (hst : s.sid.st = .run) (ho : s.sid.own = some o)
    (hsrc : f.src = addrByte o) : TestDone f o s (stakeDelivered f s) := by
  have hst' : (receiveMain f s).sid.st = .run := by simpa using hst
  have ho' : (receiveMain f s).sid.own = some o := by simpa using ho
  have hsid := duplicateTest_sid (src := f.src) hst' ho'
  rw [if_pos hsrc] at hsid
  refine ⟨hsid.trans (by simp), by rw [WindowOpened, stakeDelivered_slc]; exact ⟨rfl, rfl⟩, fun hr => ?_, fun hr hempty => ?_,
    fun hr => ?_⟩
  · rw [stakeDelivered, duplicateTest_fires hst' ho' hsrc (by simpa using hr)]
    exact (Evu.take_pulses (by decide)).1
  · rw [stakeDelivered, duplicateTest_fires hst' ho' hsrc (by simpa using hr), receiveMain_slc]
    simp [Slc.fillStake, Slc.openWindow, hempty, OutSlot.fill_empty]
  · rw [stakeDelivered, duplicateTest_pending (by simpa using hr), receiveMain_slc]
    exact ⟨rfl, receiveMain_duplicate f s⟩

theorem mainDelivered_testDone {f : Frame} {o : Addr} {s : State} (hst : s.sid.st = .run) (ho : s.sid.own = some o)
    (hl : s.csto.loaded.isSome) (hsrc : f.src = addrByte o) : TestDone f o s (mainDelivered f s) := by
  obtain ⟨hsid, hopened, harises, hfills, hmerges⟩ := stakeDelivered_testDone hst ho hsrc
  have heq : mainDelivered f s = deliverToTable f (stakeDelivered f s) := if_pos (by simpa using hl)
  have htable := deliverToTable_slc f (stakeDelivered f s)
  have hstake : (mainDelivered f s).slc.stake = (stakeDelivered f s).slc.stake := by rw [heq, htable]
  have hevu : (mainDelivered f s).evu = (stakeDelivered f s).evu := by simp [heq]
  refine ⟨?_, ?_, ?_, ?_, ?_⟩
  · simp [heq, hsid]
  · rw [WindowOpened, heq, htable]
    exact hopened
  · rwa [hevu]
  · rwa [hstake]
  · rwa [hstake, hevu]

theorem mainDelivered_onlyChanges (f : Frame) (s : State) :
    OnlyChanges [.slc, .fc, .ptab, .sid, .evu] s (mainDelivered f s) := fun b hb => by
  cases b <;> simp_all [SameBlock, mainDelivered]

/-! ### Each kind's main part at its EOB -/

/-- A main part that draws no yield is handled at its EOB, and leaves what the duplicate test has done (R63, R78 to R85, R98). -/
theorem exec_mainPart_leavesTest {c : Instr} {f : Frame} {s : State} {o : Addr} (hr : s.receiving) (hl : s.csto.loaded.isSome)
    (hd : TestDone f o s (mainDelivered f s)) (ho : s.sid.own = some o) (hc : mainPart c = some f) (hf : f.malformed = false)
    (hy : ¬YieldsTo s o f) :
    ∃ y, exec c s = .next (linkHandOff s.fc.link y) ∧ LeavesTest (mainDelivered f s) y := by
  have hhandled {h : LinkState → State → State} (hexec : exec c s = whenLive s (frameReceived f h s)) :
      exec c s = .next (linkHandOff s.fc.link (h s.fc.link (mainDelivered f s))) := by
    rw [hexec, whenLive_of_live hr.1, frameReceived_eq hr hf hl]
    rfl
  cases c with
  | noticeReceived =>
    obtain rfl := Option.some.inj hc
    exact ⟨_, hhandled (h := fun _ => settle) rfl, leavesTest_settle _⟩
  | musterReceived =>
    obtain rfl := Option.some.inj hc
    exact ⟨_, hhandled rfl, leavesTest_musterReplyStart _ _ _⟩
  | stakeReceived src tgt uid mode =>
    obtain rfl := Option.some.inj hc
    refine ⟨_, hhandled rfl, leavesTest_stakeAtEob fun o' ho' hlink htgt => ?_⟩
    rw [hd.sid] at ho' ⊢
    obtain rfl := Option.some.inj (ho.symm.trans ho')
    by_contra hyields
    simp only [contests, stakeModeOf, Bool.or_eq_true, decide_eq_true_eq, not_or, Nat.not_le] at hyields
    obtain ⟨hheld, hlower⟩ := hyields
    refine hy ⟨hlink, htgt, uid, ?_, hlower⟩
    rw [show mode = 1 by simpa using hheld]
  | capability | status | statusClear | identity | gains | targets | storeState | page | unknownSelector =>
    obtain rfl := Option.some.inj hc
    exact ⟨_, hhandled rfl, leavesTest_askAtEob _ _ _ _⟩
  | arm | disarm | burn | lock | unknownCommand =>
    obtain rfl := Option.some.inj hc
    exact ⟨_, hhandled rfl, leavesTest_fixtureAtEob _ _ _ _ _⟩
  | _ => cases hc

/-! ### The yield at the same EOB -/

theorem Slc.stake_offLine {l : Slc} (h : l.sendingMain = false) : l.onLine .stake = false := by
  cases hx : l.tx with
  | none => simp [Slc.onLine, hx]
  | some x =>
    cases x with
    | main f => exact absurd rfl (Slc.not_main_of_sendingMain hx h f)
    | _ => simp [Slc.onLine, hx]

/-- A STAKE slot whose content is on no line empties at the yield (R73, R99). -/
theorem yieldAddress_stake (o : Addr) {y : State} (hst : y.sid.st = .run) (hd : y.sid.decision = .yielding)
    (hm : y.slc.sendingMain = false) {r : Option StakeReq} (h : y.slc.stake = ⟨r, false, none⟩) :
    (yieldAddress o y).slc.stake = .empty := by
  obtain ⟨-, hslc, -⟩ := yieldAddress_atEob o hst hd hm
  have hstopped : y.slc.withdrawStake.leaveRun.stake = y.slc.withdrawStake.stake := Slc.stopped_stake .stopped (.inl hm)
  rw [hslc, hstopped, Slc.withdrawStake, Slc.stake_offLine hm, h]
  cases r <;> rfl

/-- The main part that the holder yields to is a HELD STAKE (R99). -/
theorem exec_yields {c : Instr} {f : Frame} {s : State} {o : Addr} (hr : s.receiving) (h : s.holder o) (hc : mainPart c = some f)
    (hsrc : f.src = addrByte o) (hy : YieldsTo s o f) :
    exec c s = .next (handEvents 0 (yieldAddress o (yieldDecided f s))) := by
  obtain ⟨-, htgt, uid, hbody, hlower⟩ := hy
  obtain ⟨src, tgt, body⟩ := f
  obtain rfl := hsrc
  obtain rfl := htgt
  obtain rfl := hbody
  cases c with
  | stakeReceived =>
    simp only [mainPart, Option.some.injEq, Frame.mk.injEq, Body.stake.injEq] at hc
    obtain ⟨rfl, rfl, rfl, rfl⟩ := hc
    rw [exec_stakeReceived_holder hr h _ 1 (.inr ?_), if_neg (by simpa using hlower)]
    rw [addrByte_toNat]
    exact o.isLt
  | _ => simp [mainPart] at hc

/-- Settles O27: the duplicate test, which the handling at the EOB leaves, or which a yield at the same EOB follows. -/
theorem duplicateStartsReassertion : Obligations.DuplicateStartsReassertion := by
  unfold Obligations.DuplicateStartsReassertion
  intro s o c f hr hst ho hl hc hf hsrc
  by_cases hy : YieldsTo s o f
  case neg =>
    have hdone := mainDelivered_testDone hst ho hl hsrc
    obtain ⟨y, hexec, hleaves⟩ := exec_mainPart_leavesTest hr hl hdone ho hc hf hy
    obtain ⟨hsid, ⟨hphase, hwindow⟩, harises, hfills, hmerges⟩ := hdone
    have hyst : y.sid.st ≠ .claiming := by rw [hleaves.sid, hsid]; simp [hst]
    have hyfc : y.fc = s.fc.validMain false := hleaves.fc.trans (mainDelivered_fc f s)
    obtain ⟨husid, huslc, hudup⟩ := linkHandOff_leavesTest (old := s.fc.link) hyst (by rw [hyfc]; exact s.fc.validMain_link)
    have hustake : (linkHandOff s.fc.link y).slc.stake = (mainDelivered f s).slc.stake := by rw [huslc]; exact hleaves.stake
    have hudup' := hudup.trans hleaves.duplicate
    refine ⟨_, hexec, ?window, fun h => hudup'.trans (harises h), ?raw, fun _ => ⟨?sid, fun h he => hustake.trans (hfills h he),
      fun h => ?merge⟩, fun h => absurd h hy, ?changes⟩
    case window =>
      rw [WindowOpened, huslc]
      exact ⟨hleaves.phase.trans hphase, hleaves.window.trans hwindow⟩
    case raw => rw [linkHandOff_raw, conditions_duplicate]
    case sid => rw [husid, hleaves.sid, hsid]
    case merge => exact ⟨hustake.trans (hmerges h).1, hudup'.trans (hmerges h).2⟩
    case changes =>
      exact (((mainDelivered_onlyChanges f s).mono (by simp)).trans (hleaves.changes.mono (by simp))).trans
        ((linkHandOff_onlyChanges _ y).mono (by simp))
  case pos =>
    have hexec := exec_yields hr ⟨hst, ho, hy.1, hl⟩ hc hsrc hy
    obtain ⟨hsid, -, harises, hfills, hmerges⟩ := stakeDelivered_testDone hst ho hsrc
    obtain ⟨hopened, ⟨hown, -, -, -, -, -, hreassert⟩, -, -, -, -, -, hchanges⟩ :=
      stakeYielded ⟨hst, ho, hy.1, hl⟩ hr.2.2 (f := f) rfl
    have hyst : (yieldDecided f s).sid.st = .run := by rw [yieldDecided, State.setSid_sid, hsid]; exact hst
    have hyown : (yieldDecided f s).sid.own = some o := by rw [yieldDecided, State.setSid_sid, hsid]; exact ho
    have hmain : (yieldDecided f s).slc.sendingMain = false := by
      rw [yieldDecided, State.setSid_slc, stakeDelivered_slc]
      exact hr.2.2
    have hlatched := (yieldAddress_yielded hyst hyown).events.latched 15
    refine ⟨_, hexec, hopened, fun h => (handEvents_duplicate _).trans (hlatched (harises h)), conditions_duplicate _,
      fun h => absurd hy h, fun _ => ⟨hown, hreassert, fun hempty => ?stake⟩, hchanges.mono (by simp)⟩
    cases hre : s.sid.reassert with
    | false => exact yieldAddress_stake o hyst rfl hmain (hfills hre hempty)
    | true => exact yieldAddress_stake o hyst rfl hmain ((hmerges hre).1.trans hempty)

end Sys2Proof.Machine
end

section
/-! SUPPORT. Another station's STAKE at its EOF: O38. -/

namespace Sys2Proof.Machine

/-! ### Giving up a candidate with its STAKE pending (R96, R97) -/

/-- The STAKE slot gives way to the peer table: a withdrawal empties it, and a fill replaces what is pending (R70, R73). -/
structure StakeGivesWay (l : Slc) : Prop where
  withdrawn : l.withdrawStake.stake = .empty
  filled : ∀ x, (l.fillStake x).stake = ⟨some x, false, none⟩

theorem stakeGivesWay_of_offLine {l : Slc} {r : Option StakeReq} (hstake : l.stake = ⟨r, false, none⟩) (htx : l.tx = none) :
    StakeGivesWay l := by
  have hoff : l.onLine .stake = false := by simp [Slc.onLine, htx]
  constructor
  · rw [Slc.withdrawStake, hoff, hstake]
    cases r <;> rfl
  · intro x
    rw [Slc.fillStake, hoff, hstake]
    cases r <;> rfl

theorem giveUp_goesOnFrom {c : Addr} {s : State} (hst : s.sid.st = .claiming) (hstake : StakeGivesWay s.slc)
    (h : ¬ClaimEnds c s) : GoesOnFrom c s (giveUp c s) := by
  obtain ⟨hcount, -⟩ := not_or.mp h
  rw [giveUp_eq, if_neg hcount]
  refine ⟨fun hl n hn => ?_, fun hl => ?_⟩
  · rw [chooseCandidate_found (s := candidateDropped s) hl hn]
    exact ⟨hst, rfl, hstake.filled _⟩
  · rw [chooseCandidate_waits (s := candidateDropped s) hl]
    exact ⟨hst, rfl, rfl, hstake.withdrawn⟩

theorem giveUp_of_claimEnds {c : Addr} {s : State} (h : ClaimEnds c s) : giveUp c s = enterUnaddressed (candidateDropped s) := by
  rw [giveUp_eq]
  rcases h with hcount | ⟨hl, hnone⟩
  · rw [if_pos hcount]
  · rw [chooseCandidate_notFound (s := candidateDropped s) hl hnone, ite_self]

theorem giveUp_endsClaim {c : Addr} {s : State} (hst : s.sid.st = .claiming) (hstake : StakeGivesWay s.slc) (h : ClaimEnds c s) :
    (giveUp c s).sid.st = .unaddressed ∧ (giveUp c s).sid.candidate = none ∧ (giveUp c s).sid.search = none ∧
      (giveUp c s).slc.stake = .empty := by
  rw [giveUp_of_claimEnds h, enterUnaddressed_sid, enterUnaddressed_slc (s := candidateDropped s) (by simp [candidateDropped, hst])]
  exact ⟨rfl, rfl, rfl, hstake.withdrawn⟩

theorem giveUp_uid (c : Addr) (s : State) : (giveUp c s).sid.uid = s.sid.uid := by
  rw [giveUp_eq]
  split
  · rw [enterUnaddressed_sid]
    rfl
  · rw [chooseCandidate_sid]
    rfl

/-! ### Identity's part, and the target slot's, at the EOF -/

/-- Identity judges another station's STAKE for `c`, and then the target slot empties where it was not contested (R97, R100,
R115). -/
def stakeJudged (c : Addr) (contested : Bool) (s : State) : State :=
  if contested then judgeOtherStake c true s else emptySlot c (judgeOtherStake c false s)

/-- The same at a claimant of `c`, which gives it up (R97). -/
def stakeGivenUp (c : Addr) (contested : Bool) (s : State) : State :=
  if contested then giveUp c s else emptySlot c (giveUp c s)

section
variable {s : State} {c : Addr}

theorem finishWindow_otherStake {w : Window} {src : Byte} {uid : BitVec 64} {mode : Byte} (hown : w.own = false)
    (hframe : w.frame = ⟨src, addrByte c, .stake uid mode⟩) : finishWindow w s = stakeJudged c (s.contested w) s := by
  cases hcontested : s.contested w <;> simp [finishWindow, judgeStake, stakeJudged, hframe, hown, hcontested]

theorem judgeOtherStake_yielding (hd : s.sid.decision = .yielding) (k : Bool) : judgeOtherStake c k s = resumeChoice s := if_pos hd

theorem judgeOtherStake_claimant (hd : s.sid.decision ≠ .yielding) (hst : s.sid.st = .claiming) (hc : s.sid.candidate = some c)
    (k : Bool) : judgeOtherStake c k s = giveUp c s := by
  simp [judgeOtherStake, hd, hst, hc]

theorem judgeOtherStake_holder (hd : s.sid.decision ≠ .yielding) (hst : s.sid.st = .run) (ho : s.sid.own = some c) :
    judgeOtherStake c false s = yieldAddress c s := by
  simp [judgeOtherStake, hd, hst, ho]

/-- A station that neither claims the target nor yields it is left (R97, R100). -/
theorem judgeOtherStake_left {k : Bool} (hd : s.sid.decision ≠ .yielding)
    (hc : ¬(s.sid.st = .claiming ∧ s.sid.candidate = some c)) (ho : k = true ∨ ¬(s.sid.st = .run ∧ s.sid.own = some c)) :
    judgeOtherStake c k s = s := by
  unfold judgeOtherStake
  rw [if_neg hd, if_neg (by simpa using hc), if_neg]
  rcases ho with rfl | ho
  · simp
  · simp only [Bool.and_eq_true, decide_eq_true_eq]
    exact fun h => ho h.1

theorem PeerSlot.free_of_ne_self {x : PeerSlot} (h : x ≠ .self) : x.free = .empty := by
  cases x with
  | self => exact absurd rfl h
  | _ => rfl

/-- The target slot of another station ends EMPTY, and it alone moves (R115). -/
theorem emptySlot_slots (h : s.ptab.slots.get c ≠ .self) :
    (emptySlot c s).ptab.slots.get c = .empty ∧
      ∀ b : Addr, b ≠ c → (emptySlot c s).ptab.slots.get b = s.ptab.slots.get b := by
  have hfree := PeerSlot.free_of_ne_self h
  obtain ⟨hslot, hothers⟩ := actOnSlot_slots c PeerSlot.free s
  unfold emptySlot
  split
  next hsame => exact ⟨hsame.symm.trans hfree, fun _ _ => rfl⟩
  next =>
    have hslots : (slotEmptied (actOnSlot c PeerSlot.free s)).ptab.slots = (actOnSlot c PeerSlot.free s).ptab.slots := by
      unfold slotEmptied
      split
      · exact claimFromSeed_slots _
      · rfl
    rw [hslots]
    exact ⟨hslot.trans hfree, hothers⟩

/-- Outside UNADDRESSED the slot that turns EMPTY moves neither identity nor the STAKE (R119). -/
theorem emptySlot_addressed (h : s.sid.st ≠ .unaddressed) :
    (emptySlot c s).sid = s.sid ∧ (emptySlot c s).slc = { s.slc with ask := (emptySlot c s).slc.ask } := by
  unfold emptySlot
  split
  · exact ⟨rfl, rfl⟩
  · have hleft : slotEmptied (actOnSlot c PeerSlot.free s) = actOnSlot c PeerSlot.free s := if_neg (by simpa using h)
    rw [hleft]
    exact ⟨by simp, actOnSlot_slc _ _ _⟩

/-- In UNADDRESSED it starts a claim from the seed (R105, R119). -/
theorem emptySlot_unaddressed (h : s.sid.st = .unaddressed) (hempty : s.ptab.slots.get c ≠ .empty)
    (hself : s.ptab.slots.get c ≠ .self) : emptySlot c s = claimFromSeed (actOnSlot c PeerSlot.free s) := by
  have hturns : (s.ptab.slots.get c).free ≠ s.ptab.slots.get c := by
    rw [PeerSlot.free_of_ne_self hself]
    exact hempty.symm
  rw [emptySlot, if_neg hturns]
  exact if_pos (by simpa using h)

end

/-! ### What the close of the frame keeps -/

theorem closed_stake_offLine {x : State} (h : x.slc.tx = none) : (settle (frameClosed x)).slc.stake = x.slc.stake := by
  obtain ⟨hstake, -⟩ := closed_slc x
  rw [hstake, h]
  rfl

/-- A claim from the seed leaves the STAKE slot with one content, not withdrawn (R70, R94). -/
theorem claimFromSeed_stake {y : State} (hst : y.sid.st ≠ .run) (h : y.slc.stake = .empty) :
    (claimFromSeed y).slc.stake.withdrawn = false := by
  have hempty : (claimEntered y).slc.stake = .empty := by rw [claimEntered_slc hst, h]
  have hst' : (claimEntered y).sid.st ≠ .run := by simp [claimEntered_sid]
  rw [claimFromSeed_eq]
  by_cases hl : (claimEntered y).fc.link = .active
  · obtain ⟨hfound, hnone⟩ := chooseCandidate_choiceMade hl hst' (seedOf y.sid.uid) true
    rw [Ptab.firstFree_congr (chooseCandidate_slots _ _ _)] at hnone
    simp only [Ptab.firstFree_congr (chooseCandidate_slots _ _ _)] at hfound
    cases hn : (claimEntered y).ptab.firstFree (seedOf y.sid.uid) true with
    | some n => rw [(hfound n hn).2 hempty]
    | none => rw [(hnone hn).2 hempty]; rfl
  · rw [(chooseCandidate_waiting hl).2 hempty]
    rfl

/-- A claim from the seed outlasts the close (R93, R105). -/
theorem claimFromSeed_closed {s y : State} (hfc : y.fc = s.fc) (huid : y.sid.uid = s.sid.uid) (hst : y.sid.st ≠ .run)
    (hstake : y.slc.stake = .empty) : ClaimsFromSeed s (settle (frameClosed (claimFromSeed y))) := by
  have hclaims := claimFromSeed_claims hfc huid hst hstake
  have hkept := closed_stake rfl (claimFromSeed_stake hst hstake)
  unfold ClaimsFromSeed at hclaims ⊢
  rw [closed_sid, closed_ptab, hkept]
  exact hclaims

/-! ### The clauses of the EOF -/

section
variable {s : State} {c : Addr}

/-- A station that does not yield at this EOF keeps slots and own address in identity's part (R97, R102). -/
theorem judgeOtherStake_keeps {k : Bool} (hd : s.sid.decision ≠ .yielding)
    (ho : k = true ∨ ¬(s.sid.st = .run ∧ s.sid.own = some c)) :
    (judgeOtherStake c k s).ptab.slots = s.ptab.slots ∧ (judgeOtherStake c k s).sid.own = s.sid.own := by
  by_cases hc : s.sid.st = .claiming ∧ s.sid.candidate = some c
  · rw [judgeOtherStake_claimant hd hc.1 hc.2]
    exact ⟨giveUp_slots c s, (giveUp_sid c s).1⟩
  · rw [judgeOtherStake_left hd hc ho]
    exact ⟨rfl, rfl⟩

/-- A holder of the target that did not contest yields, and its slot is EMPTY by that (R100, R101). -/
theorem stakeJudged_holder (hd : s.sid.decision ≠ .yielding) (hst : s.sid.st = .run) (ho : s.sid.own = some c) :
    stakeJudged c false s = yieldAddress c s := by
  change emptySlot c (judgeOtherStake c false s) = _
  rw [judgeOtherStake_holder hd hst ho, emptySlot_of_empty]
  rw [yieldAddress_slots, Ptab.update_get_self]

/-- At any other station the slot ends EMPTY, and it alone moves (R102, R115). -/
theorem stakeJudged_slots (hd : s.sid.decision ≠ .yielding) (ho : s.sid.own ≠ some c) (hself : s.ptab.slots.get c ≠ .self) :
    (stakeJudged c false s).ptab.slots.get c = .empty ∧
      (∀ b : Addr, b ≠ c → (stakeJudged c false s).ptab.slots.get b = s.ptab.slots.get b) ∧
      (stakeJudged c false s).sid.own = s.sid.own := by
  obtain ⟨hslots, hown⟩ := judgeOtherStake_keeps (k := false) hd (.inr fun h => ho h.2)
  obtain ⟨hempty, hothers⟩ := emptySlot_slots (s := judgeOtherStake c false s) (c := c) (by rwa [hslots])
  refine ⟨hempty, fun b hb => (hothers b hb).trans (by rw [hslots]), ?_⟩
  exact (keepsAddress_emptySlot c _).own.trans hown

theorem stakeJudged_unaddressed (hd : s.sid.decision ≠ .yielding) (hst : s.sid.st = .unaddressed)
    (hempty : s.ptab.slots.get c ≠ .empty) (hself : s.ptab.slots.get c ≠ .self) :
    stakeJudged c false s = claimFromSeed (actOnSlot c PeerSlot.free s) := by
  change emptySlot c (judgeOtherStake c false s) = _
  rw [judgeOtherStake_left hd (by simp [hst]) (.inr (by simp [hst])), emptySlot_unaddressed hst hempty hself]

/-- Where the target slot's part draws no claim it leaves identity and STAKE slot (R119). -/
theorem targetSlot_leavesIdentity {k : Bool} (h : k = true ∨ s.sid.st ≠ .unaddressed ∨ s.ptab.slots.get c = .empty) :
    (if k then s else emptySlot c s).sid = s.sid ∧ (if k then s else emptySlot c s).slc.stake = s.slc.stake := by
  rcases h with rfl | hst | hempty
  · exact ⟨rfl, rfl⟩
  · obtain ⟨hsid, hslc⟩ := emptySlot_addressed (c := c) hst
    cases k with
    | true => exact ⟨rfl, rfl⟩
    | false => exact ⟨hsid, (congrArg Slc.stake hslc :)⟩
  · rw [emptySlot_of_empty hempty, ite_self]
    exact ⟨rfl, rfl⟩

theorem GoesOnFrom.congr {x y : State} (h : GoesOnFrom c s x) (hsid : y.sid = x.sid) (hstake : y.slc.stake = x.slc.stake) :
    GoesOnFrom c s y := by
  unfold GoesOnFrom at h ⊢
  rwa [hsid, hstake]

/-- A claim that goes on is in CLAIMING, in ACTIVE and outside it (R93, R96). -/
theorem GoesOnFrom.st {x : State} (h : GoesOnFrom c s x) (hends : ¬ClaimEnds c s) : x.sid.st = .claiming := by
  obtain ⟨hactive, hwaits⟩ := h
  by_cases hl : s.fc.link = .active
  · obtain ⟨n, hn⟩ := Option.ne_none_iff_exists'.mp fun hnone => hends (.inr ⟨hl, hnone⟩)
    exact (hactive hl n hn).1
  · exact (hwaits hl).1

theorem stakeJudged_claimant {k : Bool} (hd : s.sid.decision ≠ .yielding) (hst : s.sid.st = .claiming)
    (hc : s.sid.candidate = some c) : stakeJudged c k s = stakeGivenUp c k s := by
  rw [stakeJudged, judgeOtherStake_claimant hd hst hc, judgeOtherStake_claimant hd hst hc, stakeGivenUp]

section
variable {k : Bool} (hst : s.sid.st = .claiming) (hstake : StakeGivesWay s.slc)
include hst hstake

/-- The attempt is counted, and the claim goes on: the target slot's part draws nothing in CLAIMING (R96, R97). -/
theorem stakeGivenUp_goesOn (hends : ¬ClaimEnds c s) :
    (stakeGivenUp c k s).sid.attempts = s.sid.attempts + 1 ∧ GoesOnFrom c s (stakeGivenUp c k s) := by
  have hgoes := giveUp_goesOnFrom hst hstake hends
  obtain ⟨hsid, hkept⟩ := targetSlot_leavesIdentity (k := k) (s := giveUp c s) (c := c) (.inr (.inl (by simp [hgoes.st hends])))
  exact ⟨(congrArg Sid.attempts hsid).trans (giveUp_sid c s).2, hgoes.congr hsid hkept⟩

/-- The claim ends where the target slot does not turn EMPTY (R96, R105). -/
theorem stakeGivenUp_ends (hends : ClaimEnds c s) (h : k = true ∨ s.ptab.slots.get c = .empty) :
    (stakeGivenUp c k s).sid.st = .unaddressed ∧ (stakeGivenUp c k s).sid.candidate = none ∧
      (stakeGivenUp c k s).sid.search = none ∧ (stakeGivenUp c k s).slc.stake = .empty := by
  obtain ⟨hsid, hkept⟩ := targetSlot_leavesIdentity (k := k) (s := giveUp c s) (c := c)
    (h.imp_right fun h => .inr (by rwa [giveUp_slots]))
  rw [stakeGivenUp, hsid, hkept]
  exact giveUp_endsClaim hst hstake hends

/-- Where it turns EMPTY the claim starts anew from the seed (R105, R119). -/
theorem stakeGivenUp_claims (hends : ClaimEnds c s) (hslot : s.ptab.slots.get c ≠ .empty) (hself : s.ptab.slots.get c ≠ .self) :
    ClaimsFromSeed s (settle (frameClosed (stakeGivenUp c false s))) := by
  have hslots := giveUp_slots c s
  obtain ⟨hunaddressed, -, -, hempty⟩ := giveUp_endsClaim hst hstake hends
  have hclaim : stakeGivenUp c false s = claimFromSeed (actOnSlot c PeerSlot.free (giveUp c s)) :=
    emptySlot_unaddressed hunaddressed (by rwa [hslots]) (by rwa [hslots])
  rw [hclaim]
  exact claimFromSeed_closed (by simp) (by simp [giveUp_uid]) (by simp [hunaddressed]) (by rw [actOnSlot_slc]; exact hempty)

end

/-- A claimant with another candidate keeps identity and STAKE (R97). -/
theorem stakeJudged_otherCandidate {k : Bool} (hd : s.sid.decision ≠ .yielding) (hst : s.sid.st = .claiming)
    (hc : s.sid.candidate ≠ some c) :
    ∃ ask, (stakeJudged c k s).sid = s.sid ∧ (stakeJudged c k s).slc = { s.slc with ask := ask } := by
  have hleft (k : Bool) : judgeOtherStake c k s = s := judgeOtherStake_left hd (fun h => hc h.2) (.inr (by simp [hst]))
  obtain ⟨hsid, hslc⟩ := emptySlot_addressed (s := s) (c := c) (by simp [hst])
  rw [stakeJudged, hleft, hleft]
  cases k with
  | true => exact ⟨_, rfl, rfl⟩
  | false => exact ⟨_, hsid, hslc⟩

/-- A yield at the EOB has emptied the slot then: its choice alone is left (R99). -/
theorem stakeJudged_yielding {k : Bool} (hd : s.sid.decision = .yielding) (hempty : s.ptab.slots.get c = .empty) :
    stakeJudged c k s = resumeChoice s := by
  rw [stakeJudged, judgeOtherStake_yielding hd, judgeOtherStake_yielding hd, emptySlot_of_empty, ite_self]
  rw [(resumeChoice_keeps s).1, hempty]

end

/-- The choice that a yield has left for the EOF is made over the table as it stands, or kept for ACTIVE (R93, R99). -/
theorem resumeChoice_waiting {s : State} {start : Addr} {all : Bool} (hst : s.sid.st = .claiming) (hc : s.sid.candidate = none)
    (hsearch : s.sid.search = some (start, all)) :
    resumeChoice s = if s.fc.link = .active then chooseCandidate start all s else s := by
  simp [resumeChoice, hst, hc, hsearch]

/-- Settles O38: identity's part at the EOF, the target slot's after it, and the close, which keeps both. -/
theorem uncontestedStakeFreesTheSlot : Obligations.UncontestedStakeFreesTheSlot := by
  unfold Obligations.UncontestedStakeFreesTheSlot
  intro s w c src uid mode hlive hp hw hown hframe hl hinv
  obtain ⟨-, hrun, hself⟩ := hinv
  have hx := finishWindow_otherStake (s := s) hown hframe
  refine ⟨_, exec_frameEof hlive hp hw hl, ?uncontested, ?contested, ?claimant, ?other, ?yielding, closed_onlyChanges w s⟩
  case uncontested =>
    intro hd hfirst
    have hd' : s.sid.decision ≠ .yielding := by simp [hd]
    rw [show s.contested w = false by simp [State.contested, hfirst, hd]] at hx
    rw [closed_ptab, closed_sid, hx]
    by_cases ho : s.sid.own = some c
    · have hst := hrun.mp (by simp [ho])
      obtain ⟨hnone, hreassert, hattempts, hlatched, -⟩ := yieldAddress_atEof c hst hd'
      rw [stakeJudged_holder hd' hst ho, yieldAddress_slots]
      refine ⟨Ptab.update_get_self _ _ _, fun b hb => Ptab.update_get_ne _ _ hb,
        fun _ => ⟨hnone, hattempts, hreassert, closed_latched hlatched, ?_⟩, fun h => absurd ho h, fun h => ?_⟩
      · exact (yieldAddress_choosesAfterYield c hst hd').closed
      · simp [hst] at h
    · have hne : s.ptab.slots.get c ≠ .self := fun h => ho ((hself c).mp h)
      obtain ⟨hempty, hothers, hkept⟩ := stakeJudged_slots hd' ho hne
      refine ⟨hempty, hothers, fun h => absurd h ho, fun _ => hkept, fun hst hstake hslot => ?_⟩
      rw [stakeJudged_unaddressed hd' hst hslot hne]
      exact claimFromSeed_closed (by simp) (by simp) (by simp [hst]) (by rw [actOnSlot_slc]; exact hstake)
  case contested =>
    intro hd hcontested
    rw [show s.contested w = true by simpa [State.contested] using hcontested] at hx
    rw [closed_ptab, closed_sid, hx]
    exact judgeOtherStake_keeps hd (.inl rfl)
  case claimant =>
    intro hd hst hc htx hstake
    have hnotOwn : s.sid.own ≠ some c := fun ho => by simpa [hst] using hrun.mp (by simp [ho])
    have hways := stakeGivesWay_of_offLine hstake htx
    rw [stakeJudged_claimant (by simp [hd]) hst hc] at hx
    refine ⟨fun h => ?_, fun h => ⟨fun hleft => ?_, fun hfirst hslot => ?_⟩⟩
    · obtain ⟨hattempts, hgoesOn⟩ := stakeGivenUp_goesOn (k := s.contested w) hst hways h
      rw [hx]
      exact ⟨by rw [closed_sid]; exact hattempts, hgoesOn.closed⟩
    · obtain ⟨hunaddressed, hcandidate, hsearch, hempty⟩ :=
        stakeGivenUp_ends (k := s.contested w) hst hways h (hleft.imp_left fun hfirst => by simp [State.contested, hfirst])
      rw [closed_sid, hx]
      exact ⟨hunaddressed, hcandidate, hsearch, closed_stake hempty rfl⟩
    · rw [hx, show s.contested w = false by simp [State.contested, hfirst, hd]]
      exact stakeGivenUp_claims hst hways h hslot fun hs => hnotOwn ((hself c).mp hs)
  case other =>
    intro hd hst hc htx
    obtain ⟨ask, hsid, hslc⟩ := stakeJudged_otherCandidate (k := s.contested w) (by simp [hd]) hst hc
    rw [← hx] at hsid hslc
    rw [closed_sid, hsid, closed_stake_offLine (by rw [hslc]; exact htx), hslc, ← hd]
    exact ⟨rfl, rfl⟩
  case yielding =>
    intro start all hd hst hc hsearch hstake hempty
    rw [stakeJudged_yielding hd hempty] at hx
    have hchoice := resumeChoice_waiting hst hc hsearch
    rw [closed_ptab, closed_sid, hx]
    refine ⟨(resumeChoice_keeps s).1, rfl, fun hlink => ?_, fun hlink => ?_⟩
    · rw [if_pos hlink] at hchoice
      rw [hchoice]
      have hmade := chooseCandidate_choiceMade hlink (by simp [hst]) start all
      unfold ChoiceMade at hmade
      rw [Ptab.firstFree_congr (chooseCandidate_slots _ _ _)] at hmade
      obtain ⟨hfound, hnone⟩ := hmade
      refine ⟨fun n hn => ?_, fun hn => ?_⟩
      · obtain ⟨hsid, hfilled⟩ := hfound n hn
        rw [hsid]
        exact ⟨hst, rfl, rfl, closed_stake (hfilled hstake) rfl⟩
      · obtain ⟨hsid, hkept⟩ := hnone hn
        rw [hsid]
        exact ⟨rfl, closed_stake (hkept hstake) rfl⟩
    · rw [if_neg hlink] at hchoice
      rw [hchoice]
      exact ⟨rfl, closed_stake hstake rfl⟩

end Sys2Proof.Machine
end

section
/-! SUPPORT. The ages and ask tries of a peer slot, and the ASK slot between the peer table that fills it and the controller that
sends it. -/

namespace Sys2Proof.Machine

/-! ### Ages and ask tries of one slot -/

/-- An operation on a slot that keeps heard age at most data age, and ask tries at most 3 (R112, R122). -/
def PeerSlot.KeepsAges (f : PeerSlot → PeerSlot) : Prop := ∀ x, x.agesOk → (f x).agesOk

theorem PeerSlot.report_keepsAges (lum : Rgb Nat) (flags : Byte) : KeepsAges (PeerSlot.report lum flags) := fun x _ => by
  cases x with
  | self => trivial
  | _ => exact Nat.le_refl 0

theorem PeerSlot.life_keepsAges : KeepsAges PeerSlot.life := fun x hx => by
  cases x with
  | empty | fresh | stale => exact Nat.zero_le _
  | heard => exact hx
  | self => trivial

/-- Both ages of a slot rise together, up to the same limit (R112). -/
theorem PeerSlot.age_keepsAges (removal : Nat) : KeepsAges (PeerSlot.age removal) := fun x hx => by
  cases x with
  | heard => exact hx
  | fresh | stale => exact min_le_min_right removal (Nat.succ_le_succ hx)
  | empty | self => trivial

theorem PeerSlot.goStale_keepsAges (point : Nat) : KeepsAges (PeerSlot.goStale point) := fun x hx => by
  unfold PeerSlot.goStale
  split
  · split
    · exact hx
    · exact hx
  · exact hx

theorem PeerSlot.remove_keepsAges (point : Nat) : KeepsAges (PeerSlot.remove point) := fun x hx => by
  unfold PeerSlot.remove
  split
  · split
    · trivial
    · exact hx
  · split
    · trivial
    · exact hx
  · exact hx

theorem PeerSlot.free_keepsAges : KeepsAges PeerSlot.free := fun x _ => by cases x <;> trivial

theorem PeerSlot.missed_keepsAges : KeepsAges PeerSlot.missed := fun x hx => by
  cases x with
  | heard => exact Nat.min_le_left _ _
  | _ => exact hx

theorem PeerSlot.outcome_keepsAges (o : AskOutcome) : KeepsAges (PeerSlot.outcome o) := fun x hx => by
  unfold PeerSlot.outcome
  split
  · cases o with
    | answered lum flags => exact report_keepsAges lum flags x hx
    | bad | silent => exact missed_keepsAges x hx
  · exact hx

theorem agesInv_congr {s t : State} (h : t.ptab.slots = s.ptab.slots) : AgesInv s → AgesInv t := fun hs a => by
  rw [h]
  exact hs a

theorem agesInv_update {s : State} {f : PeerSlot → PeerSlot} (hf : PeerSlot.KeepsAges f) (a : Addr) (hs : AgesInv s) :
    AgesInv (s.setPtab (s.ptab.update a f)) := fun b => by
  by_cases h : b = a
  · subst h
    rw [State.setPtab_ptab, Ptab.update_get_self]
    exact hf _ (hs b)
  · rw [State.setPtab_ptab, Ptab.update_get_ne _ _ h]
    exact hs b

theorem agesInv_updateAll {s : State} {f : PeerSlot → PeerSlot} (hf : PeerSlot.KeepsAges f) (hs : AgesInv s) :
    AgesInv (s.setPtab (s.ptab.updateAll f)) := fun a => by
  rw [State.setPtab_ptab, Ptab.updateAll_get]
  exact hf _ (hs a)

/-! ### The ASK slot at the controller -/

/-- The ASK slot stands as the peer table has it: a withdrawn frame is on the line, only then a content is held (R73), and what is
pending asks `target` (R121). -/
def Slc.Asks (l : Slc) (target : Option Addr) : Prop :=
  (l.ask.withdrawn = true → l.onLine .ask = true ∧ l.ask.content.isSome) ∧ (l.ask.held.isSome → l.ask.withdrawn = true) ∧
    l.ask.next = target.map askFor

/-- What the controller does leaves pending in the ASK slot what was (R72, R73). -/
def Slc.KeepsAsk (l m : Slc) : Prop := ∀ target, l.Asks target → m.Asks target

theorem Slc.KeepsAsk.refl (l : Slc) : l.KeepsAsk l := fun _ => id

theorem Slc.KeepsAsk.trans {l m n : Slc} (h : l.KeepsAsk m) (k : m.KeepsAsk n) : l.KeepsAsk n := fun target => k target ∘ h target

theorem Slc.keepsAsk_of_same {l m : Slc} (ha : m.ask = l.ask) (hx : m.tx = l.tx) : l.KeepsAsk m := fun target h => by
  unfold Slc.Asks Slc.onLine at h ⊢
  rw [ha, hx]
  exact h

theorem Slc.keepsAsk_ite {c : Prop} [Decidable c] {l m n : Slc} (hm : l.KeepsAsk m) (hn : l.KeepsAsk n) :
    l.KeepsAsk (if c then m else n) := by
  split
  · exact hm
  · exact hn

/-- The two ways in which a slot asks `target`: it is pending, or held for after a withdrawn frame on the line (R73). -/
theorem Slc.asks_iff {l : Slc} {target : Option Addr} :
    l.Asks target ↔ l.ask = ⟨target.map askFor, false, none⟩ ∨
      l.onLine .ask = true ∧ ∃ x, l.ask = ⟨some x, true, target.map askFor⟩ := by
  unfold Slc.Asks OutSlot.next
  obtain ⟨content, withdrawn, held⟩ := l.ask
  cases withdrawn with
  | false => simp [and_comm]
  | true => cases content <;> simp

theorem Slc.ask_offLine {l : Slc} (h : l.sendingMain = false) : l.onLine .ask = false := by
  cases hx : l.tx with
  | none => simp [Slc.onLine, hx]
  | some x =>
    cases x with
    | main f => exact absurd rfl (Slc.not_main_of_sendingMain hx h f)
    | _ => simp [Slc.onLine, hx]

theorem Slc.ask_offLine_none {l : Slc} (h : l.tx = none) : l.onLine .ask = false := by simp [Slc.onLine, h]

theorem Slc.ask_offLine_reply {l : Slc} (h : l.sendingReply = true) : l.onLine .ask = false := by
  unfold Slc.sendingReply at h
  unfold Slc.onLine
  split
  next hx => simp [hx] at h
  next => rfl

/-- Only an ASK on the line can be withdrawn there, so that without one the line is free for any other sending. -/
theorem Slc.keepsAsk_offLine {l m : Slc} (hoff : l.onLine .ask = false) (ha : m.ask = l.ask) : l.KeepsAsk m := fun target h => by
  rcases asks_iff.mp h with hfree | ⟨hon, -⟩
  · exact asks_iff.mpr (.inl (ha.trans hfree))
  · simp [hoff] at hon

/-- An attempt that ends without completing gives way to the held content where its frame was withdrawn (R72, R73). -/
theorem Slc.keepsAsk_ended {l m : Slc} {x : Sending} (hx : l.tx = some x) (hm : SlotEnded .ask x l.ask m.ask) : l.KeepsAsk m :=
  fun target h => by
    rcases asks_iff.mp h with hfree | ⟨hon, y, hmarked⟩
    · have hkept : m.ask = l.ask := hm.kept (.inr (by rw [hfree]))
      exact asks_iff.mpr (.inl (hkept.trans hfree))
    · have hcarries : x.carries .ask = true := by
        cases x with
        | main f => simpa [Slc.onLine, Sending.carries, hx] using hon
        | _ => simp [Slc.onLine, hx] at hon
      exact asks_iff.mpr (.inl (by simpa [SlotEnded, hcarries, hmarked] using hm))

theorem Slc.keepsAsk_release {l : Slc} (hoff : l.onLine .ask = false) (m : OwnMark) : l.KeepsAsk (l.release m) :=
  keepsAsk_offLine hoff rfl

theorem Slc.keepsAsk_stop (l : Slc) (m : OwnMark) : l.KeepsAsk (l.stop m) := by
  cases hx : l.tx with
  | none =>
    have hstop : l.stop m = l.release m := by simp [Slc.stop, Slc.attemptEnd, hx]
    rw [hstop]
    exact keepsAsk_release (ask_offLine_none hx) m
  | some x =>
    obtain ⟨-, hask, -⟩ := Slc.stop_slots m hx
    exact keepsAsk_ended hx hask

theorem Slc.keepsAsk_stopped (l : Slc) (m : OwnMark) : l.KeepsAsk (if l.tx.isSome then l.stop m else l) :=
  keepsAsk_ite (l.keepsAsk_stop m) (.refl l)

theorem Slc.keepsAsk_cutOff (l : Slc) : l.KeepsAsk l.cutOff := (l.keepsAsk_stopped .stopped).trans (keepsAsk_of_same rfl rfl)

theorem Slc.keepsAsk_leaveRun (l : Slc) : l.KeepsAsk l.leaveRun := l.keepsAsk_cutOff.trans (keepsAsk_of_same rfl rfl)

theorem Slc.keepsAsk_closed (l : Slc) : l.KeepsAsk l.closed := (l.keepsAsk_stopped .stopped).trans (keepsAsk_of_same rfl rfl)

theorem Slc.keepsAsk_stuck (l : Slc) : l.KeepsAsk l.stuck := (l.keepsAsk_stopped .stopped).trans (keepsAsk_of_same rfl rfl)

theorem Slc.keepsAsk_malformed (l : Slc) (f : Finding) : l.KeepsAsk (l.malformed f) :=
  (keepsAsk_ite (l.keepsAsk_stop .stopped) (.refl l)).trans (keepsAsk_of_same rfl rfl)

theorem Slc.keepsAsk_replyError (l : Slc) (w : Window) (f : ReplyFinding) : l.KeepsAsk (l.replyError w f) :=
  (keepsAsk_ite (l.keepsAsk_stop .stopped) (.refl l)).trans (keepsAsk_of_same rfl rfl)

theorem Slc.keepsAsk_stopOnError (l : Slc) : l.KeepsAsk l.stopOnError :=
  keepsAsk_ite ((l.keepsAsk_stop .stopped).trans (keepsAsk_of_same rfl rfl)) (l.keepsAsk_stop .stopped)

theorem Slc.keepsAsk_takeOwnBits (l : Slc) (pos pulse : Nat) : l.KeepsAsk (l.takeOwnBits pos pulse) := keepsAsk_of_same rfl rfl

theorem Slc.keepsAsk_lose (l : Slc) : l.KeepsAsk l.lose := by
  cases hx : l.tx with
  | none =>
    have hlose : l.lose = l := by simp [Slc.lose, hx]
    rw [hlose]
    exact .refl l
  | some x =>
    obtain ⟨-, -, hask, -⟩ := Slc.lose_fields hx
    exact keepsAsk_ended hx hask

theorem Slc.keepsAsk_partPasses (l : Slc) : l.KeepsAsk l.partPasses := by
  rw [Slc.partPasses_fields]
  exact keepsAsk_of_same rfl rfl

theorem Slc.keepsAsk_passOver (l : Slc) (n : Nat) : l.KeepsAsk (l.passOver n) := by
  rw [Slc.passOver_fields]
  exact keepsAsk_of_same rfl rfl

theorem Slc.keepsAsk_wantNotice (l : Slc) : l.KeepsAsk l.wantNotice :=
  keepsAsk_ite (.refl l) (keepsAsk_ite (keepsAsk_of_same rfl rfl) (keepsAsk_of_same rfl rfl))

/-- An own main part of another kind completes (R72). -/
theorem Slc.keepsAsk_completed {l : Slc} {k : Kind} {f : Frame} (hf : l.ownFrame k = some f) (hk : k ≠ .ask) :
    l.KeepsAsk (((l.release .none).completeSlot k).openWindow f true) := by
  obtain ⟨hx, hkind, -⟩ := Slc.ownFrame_eq_some hf
  have hoff : l.onLine .ask = false := by simp [Slc.onLine, hx, hkind, hk]
  refine keepsAsk_offLine hoff ?_
  cases k with
  | ask => exact absurd rfl hk
  | _ => rfl

/-- An own ASK completes: what was held for after it is pending (R72, R73, R121). -/
theorem Slc.asks_completed {l : Slc} {target : Option Addr} (h : l.Asks target) (f : Frame) :
    (((l.release .none).completeSlot .ask).openWindow f true).Asks (l.ask.held.map AskReq.target) := by
  refine asks_iff.mpr (.inl ?_)
  have hheld : l.ask.held = (l.ask.held.map AskReq.target).map askFor := by
    rcases asks_iff.mp h with hfree | ⟨-, y, hmarked⟩
    · rw [hfree]
      rfl
    · rw [hmarked]
      cases target <;> rfl
  exact congrArg (fun content => (⟨content, false, none⟩ : OutSlot AskReq)) hheld

/-! ### The ASK slot filled and withdrawn by the peer table -/

/-- A withdrawal leaves nothing pending, and marks a frame on the line (R73). -/
theorem Slc.asks_withdrawAsk {l : Slc} {target : Option Addr} (h : l.Asks target) : l.withdrawAsk.Asks none := by
  have hwithdrawn : l.withdrawAsk.ask = l.ask.withdraw (l.onLine .ask) := rfl
  have hline : l.withdrawAsk.onLine .ask = l.onLine .ask := rfl
  rw [asks_iff, hwithdrawn, hline]
  rcases asks_iff.mp h with hfree | ⟨hon, y, hmarked⟩
  · cases hc : target.map askFor with
    | none =>
      rw [hfree, hc]
      exact .inl rfl
    | some y =>
      rw [hfree, hc]
      cases hon : l.onLine .ask with
      | true => exact .inr ⟨rfl, y, rfl⟩
      | false => exact .inl rfl
  · rw [hmarked, hon]
    exact .inr ⟨rfl, y, rfl⟩

/-- A fill with nothing pending asks the candidate: at once, or after the withdrawn frame on the line (R73, R121). -/
theorem Slc.asks_fillAsk {l : Slc} (h : l.Asks none) (c : Addr) : (l.fillAsk (askFor c)).Asks (some c) := by
  have hfilled : (l.fillAsk (askFor c)).ask = l.ask.fill (l.onLine .ask) false (askFor c) := rfl
  have hline : (l.fillAsk (askFor c)).onLine .ask = l.onLine .ask := rfl
  rw [asks_iff, hfilled, hline]
  rcases asks_iff.mp h with hfree | ⟨hon, y, hmarked⟩
  · rw [hfree]
    exact .inl rfl
  · rw [hmarked, hon]
    exact .inr ⟨rfl, y, rfl⟩

/-! ### The candidate and the renewal of the ASK slot -/

/-- Whom the table would ask with no outcome awaited: in RUN and ACTIVE the ASK candidate, and nobody otherwise (R120). -/
def Ptab.wanted (t : Ptab) : Option Addr := if t.heldId = .run ∧ t.heldLink = .active then t.candidate else none

theorem Ptab.candidate_eq (t : Ptab) : t.candidate = Fin.find? fun a => (t.slots.get a).askable := Fin.find?_eq_find?_finRange.symm

theorem Ptab.candidate_congr {t u : Ptab} (h : ∀ a : Addr, (u.slots.get a).askable = (t.slots.get a).askable) :
    u.candidate = t.candidate := by
  unfold Ptab.candidate
  simp only [h]

theorem Ptab.wanted_congr {t u : Ptab} (hid : u.heldId = t.heldId) (hlink : u.heldLink = t.heldLink)
    (h : ∀ a : Addr, (u.slots.get a).askable = (t.slots.get a).askable) : u.wanted = t.wanted := by
  unfold Ptab.wanted
  rw [hid, hlink, candidate_congr h]

/-- A slot is askable as R120 says: HEARD, with ask tries below 3. -/
theorem PeerSlot.askable_iff (x : PeerSlot) : x.askable = true ↔ ∃ h tries, x = .heard h tries ∧ tries < 3 := by
  cases x <;> simp [PeerSlot.askable]

theorem PeerSlot.not_askable_iff (x : PeerSlot) : x.askable = false ↔ ∀ h tries, x = .heard h tries → 3 ≤ tries := by
  cases x <;> simp [PeerSlot.askable]

/-- The candidate is the lowest askable address, and none where no slot is askable (R120). -/
theorem Ptab.candidate_iff (t : Ptab) (o : Option Addr) :
    t.candidate = o ↔
      (match o with
       | some c => ∃ h tries, t.slots.get c = .heard h tries ∧ tries < 3
       | none => True) ∧
      ∀ b : Addr, (∀ c, o = some c → b < c) → ∀ h tries, t.slots.get b = .heard h tries → 3 ≤ tries := by
  rw [candidate_eq]
  cases o with
  | none =>
    rw [Fin.find?_eq_none_iff]
    simp only [PeerSlot.not_askable_iff]
    simp
  | some c =>
    rw [Fin.find?_eq_some_iff, PeerSlot.askable_iff]
    simp only [PeerSlot.not_askable_iff]
    simp

/-- Slot and table agree: the slot asks the ASK target, which with no outcome awaited is the one the table wants (R120, R121). -/
def AskKept (s : State) : Prop :=
  s.slc.Asks s.ptab.askTarget ∧ (s.ptab.awaited = false → s.ptab.askTarget = s.ptab.wanted)

theorem askInv_iff (s : State) : AskInv s ↔ s.ptab.heldId = s.sid.st ∧ s.ptab.heldLink = s.fc.link ∧ AskKept s := by
  unfold AskInv AskKept Slc.Asks
  simp only [and_assoc]
  refine and_congr_right fun hid => and_congr_right fun hlink => and_congr_right fun _ => and_congr_right fun _ =>
    and_congr_right fun _ => imp_congr_right fun _ => ?_
  unfold Ptab.wanted
  rw [hid, hlink]
  split
  next => exact ((Ptab.candidate_iff _ _).symm.trans eq_comm)
  next => rfl

/-- The renewal moves the ASK slot and the ASK target alone, so that the table wants whom it wanted. -/
theorem askUpdate_wanted (s : State) : (askUpdate s).ptab.wanted = s.ptab.wanted := by
  refine Ptab.wanted_congr ?_ ?_ fun a => by rw [askUpdate_slots]
  · rw [askUpdate_ptab]
  · rw [askUpdate_ptab]

/-- The renewal brings slot and target to the one wanted, whatever has moved before it (R121). -/
theorem askKept_askUpdate {s : State} (h : s.slc.Asks s.ptab.askTarget) : AskKept (askUpdate s) := by
  have hcleared : (if s.ptab.askTarget.isSome then s.slc.withdrawAsk else s.slc).Asks none := by
    cases ht : s.ptab.askTarget with
    | none => simpa [ht] using h
    | some a => simpa using Slc.asks_withdrawAsk h
  unfold AskKept
  rw [askUpdate_wanted]
  unfold askUpdate Ptab.wanted
  dsimp only
  cases hmay : s.ptab.mayAsk with
  | true =>
    have hwants : s.ptab.heldId = .run ∧ s.ptab.heldLink = .active := by simp_all [Ptab.mayAsk]
    rw [if_pos rfl, if_pos hwants]
    split
    next heq => exact ⟨h, fun _ => heq.symm⟩
    next =>
      cases hc : s.ptab.candidate with
      | none => exact ⟨hcleared, fun _ => rfl⟩
      | some c => exact ⟨Slc.asks_fillAsk hcleared c, fun _ => rfl⟩
  | false =>
    have hnobody (ha : s.ptab.awaited = false) : ¬(s.ptab.heldId = .run ∧ s.ptab.heldLink = .active) := fun hwants => by
      simp [Ptab.mayAsk, hwants, ha] at hmay
    rw [if_neg (by simp)]
    split
    next hw =>
      refine ⟨Slc.asks_withdrawAsk h, fun ha => ?_⟩
      rw [if_neg (hnobody ha)]
      rfl
    next hw =>
      refine ⟨h, fun ha => ?_⟩
      rw [if_neg (hnobody ha)]
      simpa [ha] using hw

end Sys2Proof.Machine
end

section
/-! SUPPORT. Slot ages, and the ASK slot kept filled for the ASK candidate, under every operation of peer table, identity and tick. -/

namespace Sys2Proof.Machine

/-! ### What an operation keeps of the peer table -/

/-- From `s` to `y` the table and the ASK slot have moved in nothing but what the renewal that follows puts right: whom the table
wants (R121). -/
structure AwaitsRenewal (s y : State) : Prop where
  ages : AgesInv s → AgesInv y
  ask : s.slc.KeepsAsk y.slc
  target : y.ptab.askTarget = s.ptab.askTarget
  heldLink : y.ptab.heldLink = s.ptab.heldLink

theorem AwaitsRenewal.askKept {s y : State} (h : AwaitsRenewal s y) (hs : AskKept s) : AskKept (askUpdate y) := by
  obtain ⟨hasks, -⟩ := hs
  refine askKept_askUpdate ?_
  rw [h.target]
  exact h.ask _ hasks

/-- Slot ages stay in order, the identity state as handed over stays the one held, the link state as handed over stays, and slot
and table go on agreeing. -/
structure KeepsPeers (s t : State) : Prop where
  ages : AgesInv s → AgesInv t
  heldId : s.ptab.heldId = s.sid.st → t.ptab.heldId = t.sid.st
  heldLink : t.ptab.heldLink = s.ptab.heldLink
  ask : AskKept s → AskKept t

theorem KeepsPeers.refl (s : State) : KeepsPeers s s := ⟨id, id, rfl, id⟩

theorem KeepsPeers.trans {s t u : State} (h : KeepsPeers s t) (k : KeepsPeers t u) : KeepsPeers s u :=
  ⟨k.ages ∘ h.ages, k.heldId ∘ h.heldId, k.heldLink.trans h.heldLink, k.ask ∘ h.ask⟩

theorem keepsPeers_ite {c : Prop} [Decidable c] {s a b : State} (ha : KeepsPeers s a) (hb : KeepsPeers s b) :
    KeepsPeers s (if c then a else b) := by
  split
  · exact ha
  · exact hb

theorem keepsPeers_of_sameTable {s t : State} (ht : t.ptab = s.ptab) (hst : t.sid.st = s.sid.st) (hl : s.slc.KeepsAsk t.slc) :
    KeepsPeers s t := by
  refine ⟨agesInv_congr (by rw [ht]), ?_, by rw [ht], ?_⟩
  · rw [ht, hst]
    exact id
  · unfold AskKept
    rw [ht]
    exact And.imp_left (hl _)

theorem keepsPeers_of_same {s t : State} (ht : t.ptab = s.ptab) (hst : t.sid.st = s.sid.st) (hl : t.slc = s.slc) : KeepsPeers s t :=
  keepsPeers_of_sameTable ht hst (by rw [hl]; exact .refl _)

theorem keepsPeers_setSlc {s : State} {l : Slc} (h : s.slc.KeepsAsk l) : KeepsPeers s (s.setSlc l) :=
  keepsPeers_of_sameTable rfl rfl h

/-- The operation on every slot leaves who is askable, as aging and turning STALE do (R112, R113). -/
theorem keepsPeers_updateAll {f : PeerSlot → PeerSlot} (hf : PeerSlot.KeepsAges f) (hask : ∀ x, (f x).askable = x.askable)
    (s : State) : KeepsPeers s (s.setPtab (s.ptab.updateAll f)) := by
  have hwanted : (s.ptab.updateAll f).wanted = s.ptab.wanted :=
    Ptab.wanted_congr rfl rfl fun a => by rw [Ptab.updateAll_get, hask]
  refine ⟨agesInv_updateAll hf, id, rfl, fun ⟨hasks, htarget⟩ => ⟨hasks, fun ha => ?_⟩⟩
  exact (htarget ha).trans hwanted.symm

theorem PeerSlot.age_askable (removal : Nat) (x : PeerSlot) : (x.age removal).askable = x.askable := by cases x <;> rfl

theorem PeerSlot.goStale_askable (point : Nat) (x : PeerSlot) : (x.goStale point).askable = x.askable := by
  unfold PeerSlot.goStale
  split
  · split
    · rfl
    · rfl
  · rfl

/-! ### Renewals -/

theorem keepsPeers_askUpdate {s y : State} (h : AwaitsRenewal s y) (hid : y.ptab.heldId = s.ptab.heldId)
    (hst : y.sid.st = s.sid.st) : KeepsPeers s (askUpdate y) := by
  refine ⟨agesInv_congr (askUpdate_slots y) ∘ h.ages, fun hs => ?_, ?_, h.askKept⟩
  · simp only [askUpdate_frame]
    rw [askUpdate_ptab, hst]
    exact hid.trans hs
  · rw [askUpdate_ptab]
    exact h.heldLink

theorem keepsPeers_handEvents (pulses : EventSet) (s : State) : KeepsPeers s (handEvents pulses s) := keepsPeers_of_same rfl rfl rfl

theorem keepsPeers_settle (s : State) : KeepsPeers s (settle s) := by
  refine keepsPeers_of_sameTable (settle_ptab s) (by rw [settle_sid]) ?_
  rw [settle_slc_fields]
  exact Slc.keepsAsk_of_same rfl rfl

theorem KeepsPeers.settle {s x : State} (h : KeepsPeers s x) : KeepsPeers s (settle x) := h.trans (keepsPeers_settle x)

/-- One slot acted on. -/
theorem awaitsRenewal_update {f : PeerSlot → PeerSlot} (hf : PeerSlot.KeepsAges f) (a : Addr) (s : State) :
    AwaitsRenewal s (s.setPtab (s.ptab.update a f)) := ⟨agesInv_update hf a, .refl _, rfl, rfl⟩

theorem keepsPeers_actOnSlot {f : PeerSlot → PeerSlot} (hf : PeerSlot.KeepsAges f) (a : Addr) (s : State) :
    KeepsPeers s (actOnSlot a f s) := keepsPeers_askUpdate (awaitsRenewal_update hf a s) rfl rfl

/-- The outcome of the own ASK: a state in which none is awaited renews the slot like any other (R122). -/
theorem keepsPeers_askOutcome (a : Addr) (o : AskOutcome) (s : State) : KeepsPeers s (askOutcome a o s) := by
  have hjudged := awaitsRenewal_update (PeerSlot.outcome_keepsAges o) a (s.setPtab { s.ptab with awaited := false })
  exact keepsPeers_askUpdate ⟨hjudged.ages, hjudged.ask, hjudged.target, hjudged.heldLink⟩ rfl rfl

/-! ### Station identity -/

/-- A change of identity state hands the state over and renews the slot (R106, R120), whatever it comes with. -/
theorem keepsPeers_changeIdentity {s y : State} (h : AwaitsRenewal s y) (new : IdState) : KeepsPeers s (changeIdentity new y) := by
  have hleft : y.slc.KeepsAsk (if y.sid.st = .run && new != .run then y.slc.leaveRun else y.slc) :=
    Slc.keepsAsk_ite y.slc.keepsAsk_leaveRun (.refl _)
  obtain ⟨hheld, hslots⟩ := changeIdentity_ptab new y
  refine ⟨agesInv_congr hslots ∘ h.ages, fun _ => ?_, ?_, fun hs => ?_⟩
  · rw [hheld, changeIdentity_sid]
  · simp only [changeIdentity, handEvents_frame]
    rw [askUpdate_ptab]
    exact h.heldLink
  · obtain ⟨hasks, -⟩ := hs
    refine (keepsPeers_handEvents 0 _).ask (askKept_askUpdate ?_)
    change Slc.Asks _ y.ptab.askTarget
    rw [h.target]
    exact hleft _ (h.ask _ hasks)

/-- Identity and the STAKE slot have moved. -/
theorem awaitsRenewal_of_same {s y : State} (ht : y.ptab = s.ptab) (ha : y.slc.ask = s.slc.ask) (hx : y.slc.tx = s.slc.tx) :
    AwaitsRenewal s y :=
  ⟨agesInv_congr (by rw [ht]), Slc.keepsAsk_of_same ha hx, by rw [ht], by rw [ht]⟩

theorem keepsPeers_enterUnaddressed (s : State) : KeepsPeers s (enterUnaddressed s) := by
  refine keepsPeers_changeIdentity ?_ .unaddressed
  exact awaitsRenewal_of_same rfl rfl rfl

theorem keepsPeers_chooseCandidate (start : Addr) (all : Bool) (s : State) : KeepsPeers s (chooseCandidate start all s) := by
  unfold chooseCandidate
  split
  · split
    · exact keepsPeers_of_sameTable rfl rfl (Slc.keepsAsk_of_same rfl rfl)
    · exact keepsPeers_enterUnaddressed s
  · exact keepsPeers_of_sameTable rfl rfl (Slc.keepsAsk_of_same rfl rfl)

theorem keepsPeers_claimFromSeed (s : State) : KeepsPeers s (claimFromSeed s) := by
  have hentered : KeepsPeers s (claimEntered s) := by
    refine keepsPeers_changeIdentity ?_ .claiming
    exact awaitsRenewal_of_same rfl rfl rfl
  exact hentered.trans (keepsPeers_chooseCandidate _ _ (claimEntered s))

theorem keepsPeers_giveUp (c : Addr) (s : State) : KeepsPeers s (giveUp c s) := by
  have hdropped : KeepsPeers s (candidateDropped s) := keepsPeers_of_same rfl rfl rfl
  rw [giveUp_eq]
  exact hdropped.trans (keepsPeers_ite (keepsPeers_enterUnaddressed _) (keepsPeers_chooseCandidate _ _ _))

/-- The own slot turns SELF (R116). -/
theorem keepsPeers_takeAddress (c : Addr) (s : State) : KeepsPeers s (takeAddress c s) := by
  refine keepsPeers_changeIdentity ?_ .run
  exact ⟨agesInv_update (f := fun _ => .self) (fun _ _ => trivial) c, Slc.keepsAsk_of_same rfl rfl, rfl, rfl⟩

/-- The own slot turns EMPTY (R101). -/
theorem keepsPeers_yieldAddress (a : Addr) (s : State) : KeepsPeers s (yieldAddress a s) := by
  have hyielded : KeepsPeers s (yielded a s) := by
    refine keepsPeers_changeIdentity ?_ .claiming
    exact ⟨agesInv_update (f := fun _ => .empty) (fun _ _ => trivial) a, Slc.keepsAsk_of_same rfl rfl, rfl, rfl⟩
  rw [yieldAddress_eq]
  exact hyielded.trans (keepsPeers_ite (keepsPeers_of_same rfl rfl rfl) (keepsPeers_chooseCandidate _ _ _))

theorem keepsPeers_slotEmptied (s : State) : KeepsPeers s (slotEmptied s) :=
  keepsPeers_ite (keepsPeers_claimFromSeed s) (.refl s)

theorem keepsPeers_resumeChoice (s : State) : KeepsPeers s (resumeChoice s) := by
  unfold resumeChoice
  split
  · exact keepsPeers_ite (keepsPeers_chooseCandidate _ _ s) (.refl s)
  · exact .refl s

theorem keepsPeers_listenEnd (s : State) : KeepsPeers s (listenEnd s) := by
  unfold listenEnd
  split
  · exact keepsPeers_ite (keepsPeers_claimFromSeed s) (.refl s)
  · exact .refl s

theorem keepsPeers_duplicateTest (src : Byte) (s : State) : KeepsPeers s (duplicateTest src s) := by
  obtain ⟨hsid, hslc⟩ := duplicateTest_keeps src s
  refine keepsPeers_of_sameTable (by simp) (by rw [hsid]) ?_
  rw [hslc]
  exact Slc.keepsAsk_of_same rfl rfl

/-! ### Ticks and aged slots -/

theorem keepsPeers_slotsRemoved (p : Params) (s : State) : KeepsPeers s (slotsRemoved p s) :=
  keepsPeers_ite (.refl s)
    (keepsPeers_askUpdate ⟨agesInv_updateAll (PeerSlot.remove_keepsAges _), .refl _, rfl, rfl⟩ rfl rfl)

theorem keepsPeers_removeSlots (w : Bool) (p : Params) (s : State) : KeepsPeers s (removeSlots w p s) := by
  have htaken (x : State) : KeepsPeers x (takeHandOff x) := keepsPeers_ite (keepsPeers_slotEmptied x) (.refl x)
  have hhanded (x : State) : KeepsPeers x (handOverEmptied w x) :=
    keepsPeers_ite (keepsPeers_of_same rfl rfl rfl) (keepsPeers_slotEmptied x)
  rw [removeSlots_eq]
  exact (keepsPeers_slotsRemoved p s).trans (keepsPeers_ite (htaken _) (hhanded _))

theorem keepsPeers_staleSlots (p : Params) (s : State) : KeepsPeers s (staleSlots p s) :=
  keepsPeers_updateAll (PeerSlot.goStale_keepsAges _) (PeerSlot.goStale_askable _) s

theorem keepsPeers_tickPeers (w : Bool) (s : State) : KeepsPeers s (tickPeers w s) := by
  unfold tickPeers
  split
  next p _ =>
    have haged : KeepsPeers s (agePeers p s) := keepsPeers_updateAll (PeerSlot.age_keepsAges _) (PeerSlot.age_askable _) s
    exact (haged.trans (keepsPeers_removeSlots w p _)).trans (keepsPeers_staleSlots p _)
  next => exact .refl s

theorem keepsPeers_tick (s : State) : KeepsPeers s (tick s) := by
  obtain ⟨f, w, n, h⟩ := tick_eq s
  have hcounts (x : State) : KeepsPeers x (tickSseq (tickEngine f x)) := keepsPeers_of_same (by simp) (by simp) (by simp)
  rw [h]
  refine ((keepsPeers_tickPeers w s).trans (hcounts _)).trans ?_
  exact keepsPeers_of_sameTable rfl rfl (Slc.keepsAsk_of_same rfl rfl)

/-- A tick with its hand-off, after the timebase has taken the edge or the expiry (R1, R2). -/
theorem keepsPeers_settle_tick (x : Ftb) (s : State) : KeepsPeers s (settle (tick (s.setFtb x))) :=
  KeepsPeers.settle (KeepsPeers.trans (t := s.setFtb x) (keepsPeers_of_same rfl rfl rfl) (keepsPeers_tick _))

theorem keepsPeers_substituteTick (s : State) : KeepsPeers s (substituteTick s) := by
  unfold substituteTick
  split
  · exact .refl s
  · exact keepsPeers_settle_tick _ s

theorem keepsPeers_slotStale (s : State) : KeepsPeers s (slotStale s) := by
  unfold slotStale
  split
  · exact (keepsPeers_staleSlots _ s).settle
  · exact .refl s

theorem keepsPeers_slotRemoval (s : State) : KeepsPeers s (slotRemoval s) := by
  unfold slotRemoval
  split
  · exact keepsPeers_removeSlots _ _ s
  · exact .refl s

end Sys2Proof.Machine
end

section
/-! SUPPORT. Slot ages, and the ASK slot kept filled for the ASK candidate, under every command. -/

namespace Sys2Proof.Machine

/-! ### A command, with the link state handed over -/

/-- What a command keeps of the peer table: slot ages, and from a state in which nothing is sent against R71 the ASK slot. -/
structure KeepsTable (s t : State) : Prop where
  ages : AgesInv s → AgesInv t
  ask : SendInv s → AskInv s → AskInv t

theorem KeepsTable.refl (s : State) : KeepsTable s s := ⟨id, fun _ => id⟩

theorem keepsTable_ite {c : Prop} [Decidable c] {s a b : State} (ha : KeepsTable s a) (hb : KeepsTable s b) :
    KeepsTable s (if c then a else b) := by
  split
  · exact ha
  · exact hb

theorem keepsTable_whenLive {s a t : State} (h : whenLive s a = .next t) (ha : KeepsTable s a) : KeepsTable s t :=
  whenLive_next h (.refl s) ha

theorem KeepsPeers.askInv {s t : State} (h : KeepsPeers s t) (hl : t.fc.link = s.fc.link) (hs : AskInv s) : AskInv t := by
  obtain ⟨hid, hlink, hask⟩ := (askInv_iff s).mp hs
  exact (askInv_iff t).mpr ⟨h.heldId hid, by rw [h.heldLink, hlink, hl], h.ask hask⟩

/-- The link state stays. -/
theorem KeepsPeers.table {s t : State} (h : KeepsPeers s t) (hl : t.fc.link = s.fc.link) : KeepsTable s t :=
  ⟨h.ages, fun _ => h.askInv hl⟩

theorem keepsTable_of_same {s t : State} (ht : t.ptab = s.ptab) (hst : t.sid.st = s.sid.st) (hl : t.slc = s.slc)
    (hlink : t.fc.link = s.fc.link) : KeepsTable s t := (keepsPeers_of_same ht hst hl).table hlink

theorem keepsTable_setSlc {s : State} {l : Slc} (h : s.slc.KeepsAsk l) : KeepsTable s (s.setSlc l) :=
  (keepsPeers_setSlc h).table rfl

/-- The signalling has moved in neither the ASK slot nor what is being sent. -/
theorem keepsTable_setSlc_same {s : State} {l : Slc} (ha : l.ask = s.slc.ask) (hx : l.tx = s.slc.tx) : KeepsTable s (s.setSlc l) :=
  keepsTable_setSlc (Slc.keepsAsk_of_same ha hx)

theorem KeepsTable.andThen {s t u : State} (h : KeepsTable s t) (k : KeepsPeers t u) (hl : u.fc.link = t.fc.link) :
    KeepsTable s u := ⟨k.ages ∘ h.ages, fun hsend hask => k.askInv hl (h.ask hsend hask)⟩

theorem keepsPeers_linkChosen (s : State) : KeepsPeers s (linkChosen s) := keepsPeers_ite (.refl s) (keepsPeers_resumeChoice s)

/-- A changed link state, handed over, renews the slot after the transmission it cuts off (R74, R120). -/
theorem askInv_linkTaken {old : LinkState} {x : State} (hid : x.ptab.heldId = x.sid.st) (hasks : x.slc.Asks x.ptab.askTarget) :
    AskInv (linkTaken old x) := by
  have hcut : x.slc.KeepsAsk (if old = .active then x.slc.cutOff else x.slc) :=
    Slc.keepsAsk_ite x.slc.keepsAsk_cutOff (.refl _)
  obtain ⟨hlink, -⟩ := linkTaken_ptab old x
  obtain ⟨hfc, -⟩ := linkTaken_frame old x
  refine (askInv_iff _).mpr ⟨?_, by rw [hlink, hfc], askKept_askUpdate (hcut _ hasks)⟩
  rw [linkTaken_sid, linkTaken, askUpdate_ptab]
  exact hid

theorem askInv_linkHandOff {old : LinkState} {x : State} (hid : x.ptab.heldId = x.sid.st) (hlink : x.ptab.heldLink = old)
    (hask : AskKept x) : AskInv (linkHandOff old x) := by
  by_cases hl : x.fc.link = old
  · rw [linkHandOff_same hl]
    exact (askInv_iff _).mpr ⟨hid, hlink.trans hl.symm, hask⟩
  · rw [linkHandOff_changed hl]
    obtain ⟨hfc, -⟩ := linkChosen_frame (linkTaken old x)
    obtain ⟨hasks, -⟩ := hask
    have hchosen := (keepsPeers_linkChosen _).askInv (by rw [hfc]) (askInv_linkTaken (old := old) hid hasks)
    exact (keepsPeers_handEvents 0 _).askInv rfl hchosen

/-- The event that reached `x` ends with its link state handed over, whatever that has become. -/
theorem KeepsPeers.handOff {s x : State} (h : KeepsPeers s x) : KeepsTable s (linkHandOff s.fc.link x) := by
  refine ⟨agesInv_congr (linkHandOff_slots _ _) ∘ h.ages, fun _ hs => ?_⟩
  obtain ⟨hid, hlink, hask⟩ := (askInv_iff s).mp hs
  exact askInv_linkHandOff (h.heldId hid) (h.heldLink.trans hlink) (h.ask hask)

theorem keepsTable_confine {s x : State} (h : KeepsPeers s x) (hl : x.fc.link = s.fc.link) (f : Fc → Fc) :
    KeepsTable s (confine f x) := by
  have hmoved : KeepsPeers s (x.setFc (f x.fc)) := h.trans (keepsPeers_of_same rfl rfl rfl)
  rw [confine, hl]
  exact hmoved.handOff

theorem keepsTable_malformed (f : Finding) (s : State) : KeepsTable s (malformed f s) :=
  keepsTable_confine (keepsPeers_setSlc (s.slc.keepsAsk_malformed f)) rfl _

theorem keepsTable_replyError (w : Window) (f : ReplyFinding) (s : State) : KeepsTable s (replyError w f s) :=
  keepsTable_confine (keepsPeers_setSlc (s.slc.keepsAsk_replyError w f)) rfl _

/-! ### Sensor bus and sense rounds -/

theorem keepsPeers_temperatureRead (o : Option Int) (s : State) : KeepsPeers s (temperatureRead o s) := by
  unfold temperatureRead
  split
  · exact KeepsPeers.settle (keepsPeers_of_same (by simp) (by simp) (by simp))
  · exact .refl s

theorem keepsPeers_countArrival (o : Option (BitVec 16)) (s : State) : KeepsPeers s (countArrival o s) := by
  unfold countArrival
  split
  · exact KeepsPeers.settle (keepsPeers_of_same (by simp) (by simp) (by simp))
  · exact .refl s

theorem keepsPeers_windowClose (s : State) : KeepsPeers s (windowClose s) := by
  unfold windowClose
  split
  · exact keepsPeers_of_same rfl rfl rfl
  · exact keepsPeers_of_same rfl rfl rfl
  · exact KeepsPeers.settle (keepsPeers_of_same rfl rfl rfl)
  · exact KeepsPeers.settle (keepsPeers_of_same rfl rfl rfl)

theorem keepsPeers_settleTimeout (s : State) : KeepsPeers s (settleTimeout s) := by
  unfold settleTimeout
  split
  · exact keepsPeers_ite (KeepsPeers.settle (keepsPeers_of_same rfl rfl rfl)) (.refl s)
  · exact .refl s

/-! ### Signalling -/

theorem keepsTable_startOfFrame (t pulse : Nat) (s : State) : KeepsTable s (startOfFrame t pulse s) := by
  unfold startOfFrame
  split
  · exact keepsTable_setSlc_same rfl rfl
  · have hentered : KeepsPeers s ((s.setSlc s.slc.enterMain).setFc (s.fc.sof t)) :=
      keepsPeers_of_sameTable rfl rfl (Slc.keepsAsk_of_same rfl rfl)
    exact keepsTable_ite (.refl s) (keepsTable_ite (hentered.table rfl) (keepsTable_setSlc_same rfl rfl))
  · exact keepsTable_ite (keepsTable_setSlc_same rfl rfl) (keepsTable_malformed _ s)
  · split
    · exact keepsTable_ite (keepsTable_setSlc_same rfl rfl) (keepsTable_replyError _ _ s)
    · exact keepsTable_setSlc_same rfl rfl

/-- A frame starts with nothing on the line. -/
theorem keepsTable_transmitStart (sof : SofSent) (s : State) : KeepsTable s (transmitStart sof s) := by
  unfold transmitStart
  split
  next hidle =>
    have hoff : s.slc.onLine .ask = false := Slc.ask_offLine_none (by simp_all)
    split
    next f _ =>
      have hsent : KeepsPeers s ((s.setSlc (s.slc.sofSent f)).setFc (s.fc.sof sof.moment)) :=
        keepsPeers_of_sameTable rfl rfl (Slc.keepsAsk_offLine hoff rfl)
      have hfailed : KeepsPeers s (s.setSlc (s.slc.sofFailed f sof.pulse)) := keepsPeers_setSlc (Slc.keepsAsk_offLine hoff rfl)
      exact keepsTable_ite (hsent.table rfl) (hfailed.table rfl)
    next => exact keepsTable_setSlc_same rfl rfl
  next => exact .refl s

theorem keepsPeers_noticeDone (f : Frame) (s : State) : KeepsPeers s (noticeDone f s) := by
  have hreported (lum : Rgb (BitVec 16)) (flags : Byte) (x : State) : x.slc.KeepsAsk (takeReported lum flags x).slc := by
    rw [takeReported_slc]
    refine Slc.keepsAsk_ite ?_ (.refl _)
    rw [earlyRequest_fields]
    exact Slc.keepsAsk_of_same rfl rfl
  refine keepsPeers_of_sameTable (by simp) (by simp) ?_
  dsimp only [noticeDone]
  generalize hx : s.setSlc _ = x
  have hcounted : s.slc.KeepsAsk x.slc := by
    rw [← hx]
    exact Slc.keepsAsk_of_same rfl rfl
  split
  · exact hcounted.trans (hreported _ _ x)
  · exact hcounted

/-- An own main part of another kind than ASK completes. -/
theorem keepsTable_ownComplete {k : Kind} (hk : k ≠ .ask) {handle : Frame → State → State}
    (hh : ∀ f x, KeepsPeers x (handle f x)) (s : State) : KeepsTable s (ownComplete k handle s) := by
  unfold ownComplete
  split
  next f hf =>
    have hcompleted : KeepsPeers s
        ((s.setSlc (((s.slc.release .none).completeSlot k).openWindow f true)).setFc (s.fc.validMain true)) :=
      keepsPeers_of_sameTable rfl rfl (Slc.keepsAsk_completed hf hk)
    exact (hcompleted.trans (hh f _)).handOff
  next => exact .refl s

/-- The own ASK completes: the target becomes the one held for after it, and from then on an outcome is awaited (R121). -/
theorem keepsPeers_askCompleted (f : Frame) (fc : Fc) (s : State) :
    KeepsPeers s (askCompleted ((s.setSlc (((s.slc.release .none).completeSlot .ask).openWindow f true)).setFc fc)) :=
  ⟨agesInv_congr rfl, id, rfl, fun ⟨hasks, _⟩ => ⟨Slc.asks_completed hasks f, nofun⟩⟩

theorem keepsTable_ownAsk (s : State) : KeepsTable s (ownComplete .ask (fun _ => askCompleted) s) := by
  unfold ownComplete
  split
  · exact (keepsPeers_askCompleted _ _ s).handOff
  · exact .refl s

theorem keepsTable_busStuckSet (d : Nat) (s : State) : KeepsTable s (busStuckSet d s) := by
  have hpulse : KeepsTable s (stuckPulse d s) := by
    unfold stuckPulse
    split
    · exact keepsTable_malformed _ s
    · exact keepsTable_replyError _ _ s
    · exact .refl s
  have hstuck (x : State) : KeepsPeers x (handEvents 0 ((x.setSlc x.slc.stuck).setFc (x.fc.stuck d))) :=
    keepsPeers_of_sameTable rfl rfl x.slc.keepsAsk_stuck
  exact keepsTable_ite (hpulse.andThen (hstuck _) rfl) (.refl s)

/-! ### Main parts of other stations -/

theorem keepsPeers_signOfLife (x : Byte) (s : State) : KeepsPeers s (signOfLife x s) := by
  unfold signOfLife
  split
  · exact keepsPeers_actOnSlot PeerSlot.life_keepsAges _ s
  · exact .refl s

theorem keepsPeers_deliverToTable (f : Frame) (s : State) : KeepsPeers s (deliverToTable f s) := by
  unfold deliverToTable
  split
  · split
    · exact keepsPeers_actOnSlot (PeerSlot.report_keepsAges _ _) _ s
    · exact .refl s
  · exact keepsPeers_signOfLife _ s
  · exact keepsPeers_signOfLife _ s
  · exact keepsPeers_signOfLife _ s
  · exact .refl s

theorem keepsPeers_mainDelivered (f : Frame) (s : State) : KeepsPeers s (mainDelivered f s) := by
  have hopened : KeepsPeers s (receiveMain f s) := keepsPeers_of_sameTable (by simp) (by simp) (Slc.keepsAsk_of_same rfl rfl)
  exact hopened.trans
    (keepsPeers_ite ((keepsPeers_duplicateTest _ _).trans (keepsPeers_deliverToTable f _)) (.refl _))

/-- A main part of another station's is handled with no own ASK on the line. -/
theorem keepsTable_frameReceived {f : Frame} {handle : LinkState → State → State}
    (hh : ∀ k x, x.slc.onLine .ask = false → KeepsPeers x (handle k x)) (s : State) : KeepsTable s (frameReceived f handle s) := by
  unfold frameReceived
  split
  next hrec =>
    have hoff : s.slc.onLine .ask = false := Slc.ask_offLine (by simp_all)
    split
    · have htx : (mainDelivered f s).slc.tx = s.slc.tx := (sameSending_deliver f (receiveMain f s)).line.tx
      have hoff' : (mainDelivered f s).slc.onLine .ask = false := by
        unfold Slc.onLine at hoff ⊢
        rw [htx]
        exact hoff
      have hdelivered := keepsPeers_mainDelivered f s
      exact KeepsPeers.handOff (keepsPeers_ite (hdelivered.trans (hh _ _ hoff')) hdelivered)
    · exact keepsTable_malformed _ s
  next => exact .refl s

/-- A reply starts with no own ASK on the line. -/
theorem keepsPeers_start {s t : State} {l : Slc} {x : Sending} (hoff : s.slc.onLine .ask = false) (ht : t.ptab = s.ptab)
    (hst : t.sid.st = s.sid.st) (hl : t.slc = l.start x) (ha : l.ask = s.slc.ask) : KeepsPeers s t :=
  keepsPeers_of_sameTable ht hst (Slc.keepsAsk_offLine hoff (by rw [hl]; exact ha))

theorem keepsPeers_musterReplyStart {s : State} (hoff : s.slc.onLine .ask = false) (start : Byte) (link : LinkState) :
    KeepsPeers s (musterReplyStart start link s) := by
  unfold musterReplyStart
  split
  · exact keepsPeers_ite (keepsPeers_start hoff rfl rfl rfl rfl) (.refl s)
  · exact .refl s

theorem keepsPeers_stakeAtEob {s : State} (hoff : s.slc.onLine .ask = false) (tgt : Byte) (uid : BitVec 64) (mode : Byte)
    (link : LinkState) : KeepsPeers s (stakeAtEob tgt uid mode link s) := by
  unfold stakeAtEob
  split
  next a _ =>
    have hdecided : KeepsPeers s (s.setSid { s.sid with decision := .yielding }) := keepsPeers_of_same rfl rfl rfl
    exact keepsPeers_ite (keepsPeers_ite (keepsPeers_start hoff rfl rfl rfl rfl) (hdecided.trans (keepsPeers_yieldAddress a _)))
      (.refl s)
  next => exact .refl s

theorem keepsPeers_giveAnswer {s : State} (hoff : s.slc.onLine .ask = false) (selector : Byte) :
    KeepsPeers s (giveAnswer selector s) :=
  keepsPeers_ite (keepsPeers_start hoff rfl rfl rfl rfl) (keepsPeers_start hoff rfl rfl rfl rfl)

theorem keepsPeers_askAtEob {s : State} (hoff : s.slc.onLine .ask = false) (tgt selector : Byte) (link : LinkState) :
    KeepsPeers s (askAtEob tgt selector link s) := by
  unfold askAtEob
  split
  · exact keepsPeers_ite (keepsPeers_giveAnswer hoff selector) (.refl s)
  · exact .refl s

theorem keepsPeers_fixtureAtEob {s : State} (hoff : s.slc.onLine .ask = false) (tgt code : Byte) (args : List Byte)
    (link : LinkState) : KeepsPeers s (fixtureAtEob tgt code args link s) := by
  unfold fixtureAtEob
  split
  · exact keepsPeers_ite (keepsPeers_ite (keepsPeers_start hoff rfl rfl rfl rfl) (keepsPeers_of_same rfl rfl rfl)) (.refl s)
  · exact .refl s

/-! ### Replies -/

theorem keepsPeers_deliverLife (v : Byte) (s : State) : KeepsPeers s (deliverLife v s) :=
  keepsPeers_ite (keepsPeers_signOfLife v s) (.refl s)

theorem keepsPeers_takeBlock (w : Window) (s : State) : KeepsPeers s (s.setSlc (s.slc.takeBlock w)) :=
  keepsPeers_setSlc (Slc.keepsAsk_of_same rfl rfl)

theorem keepsPeers_passOver (n : Nat) (s : State) : KeepsPeers s (s.setSlc (s.slc.passOver n)) :=
  keepsPeers_setSlc (s.slc.keepsAsk_passOver n)

theorem keepsPeers_contestByte (v : Byte) (s : State) : KeepsPeers s (contestByte v s) := by
  unfold contestByte
  split
  · exact (keepsPeers_takeBlock _ s).trans (keepsPeers_deliverLife v _)
  · exact keepsPeers_passOver 2 s

theorem keepsPeers_musterNext {s : State} (hoff : s.slc.onLine .ask = false) : KeepsPeers s (musterNext s) := by
  unfold musterNext
  split
  · exact keepsPeers_start hoff rfl rfl rfl rfl
  · exact keepsPeers_setSlc (Slc.keepsAsk_of_same rfl rfl)
  · exact .refl s

/-- The next try of a muster reply goes out in an open window, in which no own main part is on the line. -/
theorem keepsTable_musterByte (v : Byte) (s : State) : KeepsTable s (musterByte v s) := by
  unfold musterByte
  split
  next w hw =>
    obtain ⟨hin, -, hreply⟩ := Slc.blockPlace_eq_some hw
    obtain ⟨-, hp, -⟩ := Slc.inPlace_eq_some hin
    have hsame := sameSending_deliverLife v (s.setSlc (s.slc.takeBlock (w.countMuster v)))
    have hlife := (keepsPeers_takeBlock (w.countMuster v) s).trans (keepsPeers_deliverLife v _)
    refine ⟨agesInv_congr (by simp) ∘ hlife.ages, fun hsend => ?_⟩
    have hsilent := hsame.line.tx.trans (hsend.lineInv.tx_none_window hreply hp)
    exact (hlife.trans (keepsPeers_musterNext (Slc.ask_offLine_none hsilent))).askInv (by simp)
  next => exact (keepsPeers_passOver 2 s).table rfl

theorem keepsTable_answerReceived (block : List Byte) (s : State) : KeepsTable s (answerReceived block s) := by
  unfold answerReceived
  split
  · exact keepsTable_ite (.refl s) (keepsTable_ite (keepsTable_replyError _ _ s) ((keepsPeers_takeBlock _ s).table rfl))
  · exact (keepsPeers_passOver 2 s).table rfl

theorem keepsPeers_fixtureStatusByte (s : State) : KeepsPeers s (fixtureStatusByte s) := by
  unfold fixtureStatusByte
  split
  · exact keepsPeers_takeBlock _ s
  · exact keepsPeers_passOver 2 s

theorem keepsTable_replyBlockError (e : ReplyError) (s : State) : KeepsTable s (replyBlockError e s) := by
  unfold replyBlockError
  split
  · exact keepsTable_replyError _ _ s
  · exact (keepsPeers_passOver _ s).table rfl

theorem keepsPeers_replyDone (x : Sending) (s : State) : KeepsPeers s (replyDone x s) := by
  unfold replyDone
  split
  · exact keepsPeers_of_same rfl rfl rfl
  · exact keepsPeers_setSlc (Slc.keepsAsk_of_same rfl rfl)
  all_goals exact keepsPeers_of_same rfl rfl rfl

theorem keepsPeers_ownReply (s : State) : KeepsPeers s (ownReply s) := by
  unfold ownReply
  split
  · split
    next hreply =>
      refine KeepsPeers.trans (keepsPeers_setSlc ?_) (keepsPeers_replyDone _ _)
      exact Slc.keepsAsk_offLine (Slc.ask_offLine_reply hreply) rfl
    next => exact .refl s
  · exact .refl s

/-! ### EOF and the stuck line -/

theorem keepsPeers_judgeOwnStake (tgt : Addr) (contested : Bool) (s : State) : KeepsPeers s (judgeOwnStake tgt contested s) :=
  keepsPeers_ite (keepsPeers_ite (keepsPeers_giveUp _ s) (keepsPeers_takeAddress _ s))
    (keepsPeers_ite (keepsPeers_ite (keepsPeers_yieldAddress _ s) (keepsPeers_of_same rfl rfl rfl)) (.refl s))

theorem keepsPeers_judgeOtherStake (tgt : Addr) (contested : Bool) (s : State) :
    KeepsPeers s (judgeOtherStake tgt contested s) :=
  keepsPeers_ite (keepsPeers_resumeChoice s)
    (keepsPeers_ite (keepsPeers_giveUp _ s) (keepsPeers_ite (keepsPeers_yieldAddress _ s) (.refl s)))

theorem keepsPeers_emptySlot (tgt : Addr) (s : State) : KeepsPeers s (emptySlot tgt s) :=
  keepsPeers_ite (.refl s) ((keepsPeers_actOnSlot PeerSlot.free_keepsAges _ s).trans (keepsPeers_slotEmptied _))

theorem keepsPeers_judgeStake (w : Window) (s : State) : KeepsPeers s (judgeStake w s) := by
  unfold judgeStake
  split
  next tgt _ =>
    have hjudged := keepsPeers_judgeOtherStake tgt (s.contested w) s
    exact keepsPeers_ite (keepsPeers_judgeOwnStake _ _ s) (keepsPeers_ite hjudged (hjudged.trans (keepsPeers_emptySlot _ _)))
  next => exact .refl s

theorem keepsPeers_finishAsk (w : Window) (s : State) : KeepsPeers s (finishAsk w s) := by
  unfold finishAsk
  split
  · exact keepsPeers_askOutcome _ _ s
  · exact .refl s

theorem keepsPeers_musterStep (w : Window) (start : Byte) (s : State) : KeepsPeers s (musterStep w start s) := by
  unfold musterStep
  split
  · split
    · exact keepsPeers_setSlc (Slc.keepsAsk_of_same rfl rfl)
    · exact keepsPeers_setSlc (Slc.keepsAsk_of_same rfl rfl)
  · exact .refl s

theorem keepsPeers_finishWindow (w : Window) (s : State) : KeepsPeers s (finishWindow w s) := by
  unfold finishWindow
  split
  · exact keepsPeers_judgeStake w s
  · exact keepsPeers_ite (keepsPeers_finishAsk w s) (.refl s)
  · exact keepsPeers_ite (keepsPeers_musterStep w _ s) (.refl s)
  · exact .refl s
  · exact .refl s

theorem keepsPeers_closeFrame (w : Window) (s : State) : KeepsPeers s (closeFrame w s) := by
  have hclosed (x : State) : KeepsPeers x (frameClosed x) := keepsPeers_of_sameTable rfl rfl x.slc.keepsAsk_closed
  rw [closeFrame_eq]
  exact ((keepsPeers_ite (keepsPeers_finishWindow w s) (.refl s)).trans (hclosed _)).settle

theorem keepsPeers_frameEof (s : State) : KeepsPeers s (frameEof s) := by
  unfold frameEof
  split
  · exact keepsPeers_ite (keepsPeers_closeFrame _ s) (.refl s)
  · exact .refl s

theorem keepsTable_busStuckClear (s : State) : KeepsTable s (busStuckClear s) := by
  unfold busStuckClear
  split
  · dsimp only
    split
    next w _ =>
      have hcleared : KeepsPeers s (s.setFc { s.fc with busStuck := false, stuckFor := none }) := keepsPeers_of_same rfl rfl rfl
      exact (hcleared.trans (keepsPeers_closeFrame w _)).table (by simp)
    next =>
      refine KeepsPeers.table ?_ rfl
      exact keepsPeers_of_sameTable rfl rfl (Slc.keepsAsk_of_same rfl rfl)
  · exact .refl s

/-! ### Every command -/

theorem resetState_askInv (s : State) : AskInv (resetState s) := ⟨rfl, rfl, nofun, nofun, rfl, fun _ => rfl⟩

theorem resetState_agesInv (s : State) : AgesInv (resetState s) := agesInv_congr rfl reset_agesInv

theorem keepsPeers_endOfLoading (p : Params) (s : State) : KeepsPeers s (endOfLoading p s) := by
  have hloaded : KeepsPeers s ((((s.setCsto { s.csto with loaded := some p }).setTmon (s.tmon.load p)).setLest
      (s.lest.thermal p.chars (s.tmon.load p).tf)).setSseq (s.sseq.load p (s.tmon.load p).tfault)) :=
    keepsPeers_of_same rfl rfl rfl
  have hlistens (x : State) : KeepsPeers x (listenStart x) := by
    refine keepsPeers_changeIdentity ?_ .listen
    exact awaitsRenewal_of_same rfl rfl rfl
  have hstarted (x : State) : KeepsPeers x (eventsStart p (gainsStart p x)) := keepsPeers_of_same rfl rfl rfl
  have htaken : KeepsPeers s (loadingTaken p s) := (hloaded.trans (hlistens _)).trans (hstarted _)
  exact htaken.settle

theorem keepsTable_askReceived (src tgt selector : Byte) (s : State) : KeepsTable s (askReceived src tgt selector s) :=
  keepsTable_frameReceived (fun k _ hoff => keepsPeers_askAtEob hoff tgt selector k) s

theorem keepsTable_fixtureReceived (src tgt code : Byte) (args : List Byte) (s : State) :
    KeepsTable s (fixtureReceived src tgt code args s) :=
  keepsTable_frameReceived (fun k _ hoff => keepsPeers_fixtureAtEob hoff tgt code args k) s

theorem exec_keepsTable {c : Instr} {s t : State} (h : exec c s = .next t) : KeepsTable s t := by
  cases c with
  | reset =>
    obtain rfl := Host.Outcome.next.inj h
    exact ⟨fun _ => resetState_agesInv s, fun _ _ => resetState_askInv s⟩
  | resetRelease =>
    obtain rfl := Host.Outcome.next.inj h
    exact keepsTable_ite (keepsTable_of_same rfl rfl rfl rfl) (.refl s)
  | endOfLoading => exact keepsTable_whenLive h (keepsTable_ite ((keepsPeers_endOfLoading _ s).table (by simp)) (.refl s))
  | fsyncEdge =>
    exact keepsTable_whenLive h (keepsTable_ite ((keepsPeers_settle_tick _ s).table (by simp)) (.refl s))
  | substituteTick => exact keepsTable_whenLive h ((keepsPeers_substituteTick s).table (by simp))
  | pollTimerExpiry =>
    refine keepsTable_whenLive h ?_
    split
    · exact .refl s
    · exact keepsTable_of_same rfl rfl rfl rfl
  | temperatureReadCompletion => exact keepsTable_whenLive h ((keepsPeers_temperatureRead _ s).table (by simp))
  | senseWindowClose => exact keepsTable_whenLive h ((keepsPeers_windowClose s).table (by simp))
  | countArrival => exact keepsTable_whenLive h ((keepsPeers_countArrival _ s).table (by simp))
  | settleTimeout => exact keepsTable_whenLive h ((keepsPeers_settleTimeout s).table (by simp))
  | senseWindowOpen | intervalTimerExpiry =>
    exact keepsTable_whenLive h (keepsTable_of_same (by simp) (by simp) (by simp) (by simp))
  | receiverReady =>
    exact keepsTable_whenLive h (keepsTable_ite (keepsTable_setSlc_same rfl rfl) (.refl s))
  | transmitStart => exact keepsTable_whenLive h (keepsTable_transmitStart _ s)
  | arbitrationLoss pos pulse =>
    have hlost := (s.slc.keepsAsk_takeOwnBits pos pulse).trans (Slc.keepsAsk_lose _)
    exact keepsTable_whenLive h (keepsTable_ite (keepsTable_setSlc hlost) (.refl s))
  | bitError pos pulse =>
    have hstopped := (s.slc.keepsAsk_takeOwnBits pos pulse).trans (Slc.keepsAsk_stopOnError _)
    exact keepsTable_whenLive h (keepsTable_ite (keepsTable_confine (keepsPeers_setSlc hstopped) rfl _) (.refl s))
  | sendSymbolError pos pulse =>
    have hstopped := (s.slc.keepsAsk_takeOwnBits pos pulse).trans (Slc.keepsAsk_stopOnError _)
    exact keepsTable_whenLive h (keepsTable_ite (keepsTable_setSlc hstopped) (.refl s))
  | malformedFrame => exact keepsTable_whenLive h (keepsTable_ite (keepsTable_malformed _ s) (.refl s))
  | ownNoticeComplete => exact keepsTable_whenLive h (keepsTable_ownComplete (by decide) keepsPeers_noticeDone s)
  | ownAskComplete => exact keepsTable_whenLive h (keepsTable_ownAsk s)
  | ownStakeComplete | ownMusterComplete => exact keepsTable_whenLive h (keepsTable_ownComplete (by decide) (fun _ => .refl) s)
  | noticeReceived => exact keepsTable_whenLive h (keepsTable_frameReceived (fun _ x _ => keepsPeers_settle x) s)
  | musterReceived =>
    exact keepsTable_whenLive h (keepsTable_frameReceived (fun k _ hoff => keepsPeers_musterReplyStart hoff _ k) s)
  | stakeReceived =>
    exact keepsTable_whenLive h (keepsTable_frameReceived (fun k _ hoff => keepsPeers_stakeAtEob hoff _ _ _ k) s)
  | capability | status | statusClear | identity | gains | targets | storeState | page | unknownSelector =>
    exact keepsTable_whenLive h (keepsTable_askReceived _ _ _ s)
  | arm | disarm | burn | lock | unknownCommand => exact keepsTable_whenLive h (keepsTable_fixtureReceived _ _ _ _ s)
  | contestByteReceived => exact keepsTable_whenLive h ((keepsPeers_contestByte _ s).table (by simp))
  | musterByteReceived => exact keepsTable_whenLive h (keepsTable_musterByte _ s)
  | answerBlockReceived => exact keepsTable_whenLive h (keepsTable_answerReceived _ s)
  | fixtureStatusByteReceived => exact keepsTable_whenLive h ((keepsPeers_fixtureStatusByte s).table (by simp))
  | replyBlockError => exact keepsTable_whenLive h (keepsTable_replyBlockError _ s)
  | ownReplyComplete => exact keepsTable_whenLive h ((keepsPeers_ownReply s).table (by simp))
  | frameEof => exact keepsTable_whenLive h ((keepsPeers_frameEof s).table (by simp))
  | reportTimerDue =>
    exact keepsTable_whenLive h (keepsTable_ite (keepsTable_setSlc (s.slc.keepsAsk_wantNotice)) (.refl s))
  | spacingCountFull =>
    exact keepsTable_whenLive h (keepsTable_ite (keepsTable_setSlc_same rfl rfl) (.refl s))
  | listenEnd => exact keepsTable_whenLive h ((keepsPeers_listenEnd s).table (by simp))
  | slotStale => exact keepsTable_whenLive h ((keepsPeers_slotStale s).table (by simp))
  | slotRemoval => exact keepsTable_whenLive h ((keepsPeers_slotRemoval s).table (by simp))
  | silenceExpiry | detach | detachRecovery => exact keepsTable_whenLive h (keepsTable_confine (.refl s) rfl _)
  | detachHistoryClear =>
    refine keepsTable_whenLive h (keepsTable_of_same rfl rfl rfl ?_)
    rw [State.setFc_fc, Fc.clearHistory]
    split
    · rfl
    · rfl
  | busStuckSet => exact keepsTable_whenLive h (keepsTable_busStuckSet _ s)
  | busStuckClear => exact keepsTable_whenLive h (keepsTable_busStuckClear s)
  | driverTransferComplete | burnByteComplete | lockComplete =>
    exact keepsTable_whenLive h (keepsTable_of_same rfl rfl rfl rfl)
  | startOfFrame => exact keepsTable_whenLive h (keepsTable_startOfFrame _ _ s)

end Sys2Proof.Machine
end

section
/-! SUPPORT. The error counts and the driver cut at fault confinement, and what a step keeps of them and of the peer table: O54. -/

namespace Sys2Proof.Machine

/-! ### Fault confinement's own operations -/

/-- TEC and REC stay in 0..255, and the cut is open exactly in DETACHED, latched or not (R148, R154, R155). -/
def Fc.CountsOk (f : Fc) : Prop := f.tec ≤ 255 ∧ f.recCount ≤ 255 ∧ (f.cut = true ↔ f.link.isDetached = true)

theorem countsInv_iff (s : State) : CountsInv s ↔ s.fc.CountsOk := Iff.rfl

/-- A valid main part lowers the counts, and leads from QUIET to ACTIVE at most (R147, R150). -/
theorem Fc.CountsOk.validMain {f : Fc} (h : f.CountsOk) (own : Bool) : (f.validMain own).CountsOk := by
  obtain ⟨htec, hrec, hcut⟩ := h
  have hfallen : (if own || f.link = .quiet then f.tec - 1 else f.tec) ≤ 255 := by
    split
    · exact (Nat.sub_le _ _).trans htec
    · exact htec
  dsimp only [Fc.validMain]
  generalize (if own || f.link = .quiet then f.tec - 1 else f.tec) = tec at hfallen ⊢
  refine ⟨hfallen, (Nat.sub_le _ _).trans hrec, hcut.trans ?_⟩
  dsimp only
  split
  next hgo =>
    simp only [Bool.and_eq_true, decide_eq_true_eq] at hgo
    rw [hgo.1]
    decide
  next => rfl

theorem Fc.CountsOk.bitError {f : Fc} (h : f.CountsOk) : f.bitError.CountsOk := by
  obtain ⟨-, hrec, hcut⟩ := h
  rw [Fc.bitError_fc]
  refine ⟨Nat.min_le_left _ _, hrec, hcut.trans ?_⟩
  dsimp only
  split
  next hgo =>
    rw [hgo.1]
    decide
  next => rfl

theorem Fc.CountsOk.receiveError {f : Fc} (h : f.CountsOk) : f.receiveError.CountsOk := by
  obtain ⟨htec, -, hcut⟩ := h
  exact ⟨htec, Nat.min_le_left _ _, hcut⟩

theorem Fc.CountsOk.silence {f : Fc} (h : f.CountsOk) : f.silence.CountsOk := by
  obtain ⟨htec, hrec, hcut⟩ := h
  unfold Fc.silence
  split
  · exact ⟨htec, hrec, hcut⟩
  · refine ⟨Nat.zero_le _, Nat.zero_le _, hcut.trans ?_⟩
    dsimp only
    split
    next hquiet =>
      rw [hquiet]
      decide
    next => rfl

/-- Every detach opens the cut and leaves the counts (R154, R156). -/
theorem Fc.CountsOk.detachCheck {f : Fc} (h : f.CountsOk) (t onTime : Nat) : (f.detachCheck t onTime).CountsOk := by
  unfold Fc.detachCheck
  split
  · obtain ⟨htec, hrec, -⟩ := h
    obtain ⟨hopen, htec', hrec', -, hdetached⟩ := f.detach_fields t onTime
    exact ⟨htec'.trans_le htec, hrec'.trans_le hrec, iff_of_true hopen hdetached⟩
  · exact h

/-- The recovery closes the cut with the link ACTIVE, before a stage that still conducts detaches again (R155; log 15). -/
theorem Fc.CountsOk.recover {f : Fc} (h : f.CountsOk) (conducting : Bool) : (f.recover conducting).CountsOk := by
  unfold Fc.recover
  split
  next e _ _ =>
    obtain ⟨-, hrec, -⟩ := h
    have hconnected : Fc.CountsOk { f with cut := false, tec := 96, link := .active, recoveryTimer := none, driverOn := none } :=
      ⟨(by decide : 96 ≤ 255), hrec, iff_of_false nofun nofun⟩
    dsimp only
    split
    · exact hconnected.detachCheck _ _
    · exact hconnected
  next => exact h

theorem Fc.CountsOk.clearHistory {f : Fc} (h : f.CountsOk) : f.clearHistory.CountsOk := by
  unfold Fc.clearHistory
  split
  · exact h
  · exact h

/-! ### Every command -/

theorem countsInv_of_same {s t : State} (hs : CountsInv s) (h : t.fc = s.fc) : CountsInv t := by
  rw [countsInv_iff, h]
  exact hs

theorem countsInv_ite {c : Prop} [Decidable c] {a b : State} (ha : CountsInv a) (hb : CountsInv b) :
    CountsInv (if c then a else b) := by
  split
  · exact ha
  · exact hb

theorem countsInv_confine {f : Fc → Fc} {s : State} (h : (f s.fc).CountsOk) : CountsInv (confine f s) := by
  rw [countsInv_iff, confine_fc]
  exact h

theorem countsInv_malformed {s : State} (hs : CountsInv s) (f : Finding) : CountsInv (malformed f s) :=
  countsInv_confine (Fc.CountsOk.receiveError hs)

theorem countsInv_replyError {s : State} (hs : CountsInv s) (w : Window) (f : ReplyFinding) : CountsInv (replyError w f s) :=
  countsInv_confine (Fc.CountsOk.receiveError hs)

theorem countsInv_ownComplete {s : State} (hs : CountsInv s) {k : Kind} {handle : Frame → State → State}
    (hh : ∀ f x, (handle f x).fc = x.fc) : CountsInv (ownComplete k handle s) := by
  unfold ownComplete
  split
  · exact countsInv_of_same (s := s.setFc (s.fc.validMain true)) (Fc.CountsOk.validMain hs true) (by simp [hh])
  · exact hs

theorem countsInv_frameReceived {s : State} (hs : CountsInv s) {f : Frame} {handle : LinkState → State → State}
    (hh : ∀ k x, (handle k x).fc = x.fc) : CountsInv (frameReceived f handle s) := by
  unfold frameReceived
  split
  · split
    · have hreceived : CountsInv (receiveMain f s) := by
        rw [countsInv_iff, receiveMain_fc]
        exact Fc.CountsOk.validMain hs false
      refine countsInv_of_same hreceived ?_
      dsimp only
      split
      · simp [hh]
      · simp
    · exact countsInv_malformed hs _
  · exact hs

theorem countsInv_startOfFrame {s : State} (hs : CountsInv s) (t pulse : Nat) : CountsInv (startOfFrame t pulse s) := by
  unfold startOfFrame
  split
  · exact hs
  · exact countsInv_ite hs (countsInv_ite hs hs)
  · exact countsInv_ite hs (countsInv_malformed hs _)
  · split
    · exact countsInv_ite hs (countsInv_replyError hs _ _)
    · exact hs

theorem countsInv_transmitStart {s : State} (hs : CountsInv s) (sof : SofSent) : CountsInv (transmitStart sof s) := by
  unfold transmitStart
  split
  · split
    · exact countsInv_ite hs hs
    · exact hs
  · exact hs

theorem countsInv_answerReceived {s : State} (hs : CountsInv s) (block : List Byte) : CountsInv (answerReceived block s) := by
  unfold answerReceived
  split
  · exact countsInv_ite hs (countsInv_ite (countsInv_replyError hs _ _) hs)
  · exact hs

theorem countsInv_replyBlockError {s : State} (hs : CountsInv s) (e : ReplyError) : CountsInv (replyBlockError e s) := by
  unfold replyBlockError
  split
  · exact countsInv_replyError hs _ _
  · exact hs

theorem countsInv_busStuckSet {s : State} (hs : CountsInv s) (d : Nat) : CountsInv (busStuckSet d s) := by
  have hpulse : CountsInv (stuckPulse d s) := by
    unfold stuckPulse
    split
    · exact countsInv_malformed hs _
    · exact countsInv_replyError hs _ _
    · exact hs
  exact countsInv_ite hpulse hs

theorem countsInv_busStuckClear {s : State} (hs : CountsInv s) : CountsInv (busStuckClear s) := by
  unfold busStuckClear
  split
  · dsimp only
    split
    · exact countsInv_of_same (s := s.setFc { s.fc with busStuck := false, stuckFor := none }) hs (by simp)
    · exact hs
  · exact hs

theorem exec_countsInv {c : Instr} {s t : State} (hs : CountsInv s) (h : exec c s = .next t) : CountsInv t := by
  cases c with
  | reset =>
    obtain rfl := Host.Outcome.next.inj h
    exact reset_countsInv
  | resetRelease =>
    obtain rfl := Host.Outcome.next.inj h
    exact countsInv_ite hs hs
  | endOfLoading => exact whenLive_next h hs (countsInv_ite (countsInv_of_same hs (by simp)) hs)
  | pollTimerExpiry =>
    refine whenLive_next h hs ?_
    split
    · exact hs
    · exact hs
  | receiverReady | arbitrationLoss | sendSymbolError | reportTimerDue | spacingCountFull =>
    exact whenLive_next h hs (countsInv_ite hs hs)
  | transmitStart => exact whenLive_next h hs (countsInv_transmitStart hs _)
  | bitError => exact whenLive_next h hs (countsInv_ite (countsInv_confine (Fc.CountsOk.bitError hs)) hs)
  | malformedFrame => exact whenLive_next h hs (countsInv_ite (countsInv_malformed hs _) hs)
  | ownNoticeComplete | ownAskComplete | ownStakeComplete | ownMusterComplete =>
    exact whenLive_next h hs (countsInv_ownComplete hs (by simp))
  | noticeReceived | musterReceived | stakeReceived => exact whenLive_next h hs (countsInv_frameReceived hs (by simp))
  | capability | status | statusClear | identity | gains | targets | storeState | page | unknownSelector =>
    exact whenLive_next h hs (countsInv_frameReceived (handle := askAtEob _ _) hs (by simp))
  | arm | disarm | burn | lock | unknownCommand =>
    exact whenLive_next h hs (countsInv_frameReceived (handle := fixtureAtEob _ _ _) hs (by simp))
  | answerBlockReceived => exact whenLive_next h hs (countsInv_answerReceived hs _)
  | replyBlockError => exact whenLive_next h hs (countsInv_replyBlockError hs _)
  | silenceExpiry => exact whenLive_next h hs (countsInv_confine (Fc.CountsOk.silence hs))
  | detach => exact whenLive_next h hs (countsInv_confine (Fc.CountsOk.detachCheck hs _ _))
  | detachRecovery => exact whenLive_next h hs (countsInv_confine (Fc.CountsOk.recover hs _))
  | detachHistoryClear => exact whenLive_next h hs (Fc.CountsOk.clearHistory hs)
  | busStuckSet => exact whenLive_next h hs (countsInv_busStuckSet hs _)
  | busStuckClear => exact whenLive_next h hs (countsInv_busStuckClear hs)
  | startOfFrame => exact whenLive_next h hs (countsInv_startOfFrame hs _ _)
  | fsyncEdge | substituteTick | temperatureReadCompletion | senseWindowOpen | senseWindowClose | countArrival
  | intervalTimerExpiry | settleTimeout | contestByteReceived | musterByteReceived | fixtureStatusByteReceived
  | ownReplyComplete | frameEof | listenEnd | slotStale | slotRemoval | driverTransferComplete | burnByteComplete
  | lockComplete => exact whenLive_next h hs (countsInv_of_same hs (by simp))

/-! ### Every step -/

/-- Settles O54: line time goes on in the part on the line alone, and each command keeps slot ages, counts and cut, and renews the
ASK slot wherever it moves what the candidate rests on. -/
theorem agesAndCountsKept : Obligations.AgesAndCountsKept := by
  unfold Obligations.AgesAndCountsKept
  intro s t h
  rcases step_cases h with rfl | rfl | ⟨c, rest, h⟩
  · exact ⟨And.intro, fun _ => id⟩
  · exact ⟨And.intro, fun _ => (keepsPeers_setSlc s.slc.keepsAsk_partPasses).askInv rfl⟩
  · have hkept : KeepsTable (s.setPending rest) t := exec_keepsTable h
    refine ⟨fun hages hcounts => ⟨hkept.ages hages, exec_countsInv (s := s.setPending rest) hcounts h⟩, fun hsend hask => ?_⟩
    exact hkept.ask (hsend.congr ⟨.refl _, rfl, rfl, rfl, rfl⟩) hask

end Sys2Proof.Machine
end

section
/-! SUPPORT. The engine's recompute, channel by channel: members, marks, desired and ceilinged gains, the two gain flags: O16. -/

namespace Sys2Proof.Machine

/-! ### The eligible set (R128) -/

theorem eligible_some (x : Entry) : eligible (some x) = if x.flags &&& 0x1F = 0 then some x.lum else none := by
  simp [eligible, excluded]

/-- The own entry's triple comes first, where it takes part, and then those of the contributions that do. -/
theorem Tge.members_eq {t : Tge} {own : Entry} (ho : t.own = some own) :
    t.members = (if own.flags &&& 0x1F = 0 then [own.lum] else []) ++ t.peers.toList.filterMap eligible := by
  rw [Tge.members, ho, List.filterMap_cons, eligible_some]
  split_ifs
  · rfl
  · rfl

/-! ### Marks and gains of one channel -/

theorem ownMark_eq_true {phi n median own : Nat} {uncal : Bool} :
    ownMark phi uncal n median own = true ↔ uncal = false ∧ 3 ≤ n ∧ own * 256 < median * phi := by
  simp [ownMark, isOutlier, and_assoc]

theorem desiredGain_uncal (p : Params) (mark : Bool) (target own : Nat) :
    desiredGain p true mark target own = 16 * p.headroom := rfl

theorem desiredGain_marked (p : Params) (target own : Nat) : desiredGain p false true target own = 4096 := rfl

theorem desiredGain_plain (p : Params) (target own : Nat) :
    desiredGain p false false target own = clampNat p.gMin 4096 (gainQuotient target own) := rfl

theorem flooredGain_eq_true {p : Params} {uncal mark : Bool} {target own : Nat} :
    flooredGain p uncal mark target own = true ↔ uncal = false ∧ mark = false ∧ gainQuotient target own < p.gMin := by
  simp [flooredGain, and_assoc]

/-- g_min is no gain above 1 (R134, R163). -/
theorem Params.gMin_within {p : Params} (hp : p.settingsInRange) : 2048 ≤ p.gMin ∧ p.gMin ≤ 4096 := by
  obtain ⟨-, -, -, -, -, hfloor, -⟩ := hp
  simp only [Params.gMin]
  omega

/-- The gain of an UNCAL tile, and every gain at the end of loading (R135, R140). -/
theorem Params.headroom_within {p : Params} (hp : p.settingsInRange) : 2048 ≤ 16 * p.headroom ∧ 16 * p.headroom ≤ 4096 := by
  obtain ⟨-, -, -, hloss, -⟩ := hp
  simp only [Params.headroom]
  omega

/-- The largest gain that does not overshoot the target, within g_min..4096 (R134): below it only where it is 4096, above it only
where it is g_min. -/
theorem clampedQuotient_fits {lo target own : Nat} (hlo : lo ≤ 4096) (hown : 0 < own) :
    (clampNat lo 4096 (gainQuotient target own) * own ≤ 4096 * target ∨ clampNat lo 4096 (gainQuotient target own) = lo) ∧
      (4096 * target < (clampNat lo 4096 (gainQuotient target own) + 1) * own ∨
        clampNat lo 4096 (gainQuotient target own) = 4096) := by
  have hfits : gainQuotient target own * own ≤ 4096 * target := by
    rw [Nat.mul_comm 4096]
    exact Nat.div_mul_le_self _ _
  have hnext : 4096 * target < (gainQuotient target own + 1) * own := by
    rw [Nat.mul_comm 4096]
    exact Nat.lt_mul_of_div_lt (Nat.lt_succ_self _) hown
  simp only [clampNat]
  generalize gainQuotient target own = q at hfits hnext
  refine ⟨?_, ?_⟩
  · by_cases h : max lo (min 4096 q) = lo
    · exact .inr h
    · exact .inl ((Nat.mul_le_mul_right own (by omega)).trans hfits)
  · by_cases h : max lo (min 4096 q) = 4096
    · exact .inr h
    · exact .inl (hnext.trans_le (Nat.mul_le_mul_right own (by omega)))

/-! ### The recompute (R127) -/

theorem Rgb.any_eq_true {α : Type} {v : Rgb α} {f : α → Bool} : v.any f = true ↔ ∃ c : Channel, f (v.get c) = true := by
  simp only [Rgb.any, Bool.or_eq_true]
  refine ⟨?_, ?_⟩
  · rintro ((h | h) | h)
    · exact ⟨.r, h⟩
    · exact ⟨.g, h⟩
    · exact ⟨.b, h⟩
  · rintro ⟨c, h⟩
    cases c with
    | r => exact .inl (.inl h)
    | g => exact .inl (.inr h)
    | b => exact .inr h

/-- Without an own entry nothing is computed (R127, R146). -/
theorem Tge.recompute_none {t : Tge} (p : Params) (ho : t.own = none) : t.recompute p = t := by simp [Tge.recompute, ho]

/-- What a recompute gives each channel, from the members and the own entry (R129 to R136). -/
theorem Tge.recompute_channels {t : Tge} {own : Entry} (p : Params) (ho : t.own = some own) :
    ∃ med tgt des g : Rgb Nat,
      (t.recompute p).median = some med ∧ (t.recompute p).target = some tgt ∧ (t.recompute p).desired = some des ∧
      (t.recompute p).ceiled = some g ∧
      (∀ c : Channel,
        med.get c = medianOf (own.lum.get c) (t.members.map fun m => m.get c) ∧
        tgt.get c = targetOf p.headroom p.floorRatio (own.lum.get c) (t.members.map fun m => m.get c) ∧
        (t.recompute p).marks.get c =
          ownMark p.floorRatio (hasUncal own.flags) t.members.length (med.get c) (own.lum.get c) ∧
        des.get c = desiredGain p (hasUncal own.flags) ((t.recompute p).marks.get c) (tgt.get c) (own.lum.get c) ∧
        g.get c = ceiledGain t.crit (des.get c)) ∧
      ((t.recompute p).floored = true ↔
        ∃ c : Channel,
          flooredGain p (hasUncal own.flags) ((t.recompute p).marks.get c) (tgt.get c) (own.lum.get c) = true) := by
  simp only [Tge.recompute, ho]
  refine ⟨_, _, _, _, rfl, rfl, rfl, rfl, fun c => by cases c <;> exact ⟨rfl, rfl, rfl, rfl, rfl⟩, ?_⟩
  exact (Rgb.any_eq_true (v := ⟨_, _, _⟩) (f := id)).trans
    (exists_congr fun c => by cases c <;> exact Iff.rfl)

/-- BELOWFLOOR gathers the own outlier marks (R133), and the size is that of the eligible set (R144). -/
theorem Tge.recompute_gathers {t : Tge} {own : Entry} (p : Params) (ho : t.own = some own) :
    (t.recompute p).size = t.members.length ∧
      ((t.recompute p).belowFloor = true ↔ ∃ c : Channel, (t.recompute p).marks.get c = true) := by
  refine ⟨by simp [Tge.recompute, ho], ?_⟩
  simp only [Tge.recompute, ho]
  exact Rgb.any_eq_true

/-- Settles O16: a recompute channel by channel (`Tge.recompute_channels`), with what its mark and its gain say. -/
theorem gainsFollowTheTargets : Obligations.GainsFollowTheTargets := by
  unfold Obligations.GainsFollowTheTargets
  intro p t own hp ho hlum
  obtain ⟨med, tgt, des, g, hmed, htgt, hdes, hg, hchannels, hfloored⟩ := t.recompute_channels p ho
  obtain ⟨hsize, hbelow⟩ := t.recompute_gathers p ho
  obtain ⟨hkeptOwn, hkeptPeers, hkeptCrit, hkeptApplied⟩ := Tge.recompute_inputs p t
  refine ⟨med, tgt, des, g, hmed, htgt, hdes, hg, hsize, ?members, fun c => ?channel, hbelow, ?floored, hkeptApplied, hkeptOwn,
    hkeptPeers, hkeptCrit⟩
  case members =>
    rw [Tge.members_eq ho]
    congr 2
    funext e
    cases e with
    | none => rfl
    | some x => exact eligible_some x
  case floored =>
    rw [hfloored]
    exact exists_congr fun c => flooredGain_eq_true
  case channel =>
    obtain ⟨hm, ht, hmark, hd, hc⟩ := hchannels c
    refine ⟨hm, ht, by rw [hmark, ownMark_eq_true], fun hu => ?_, fun hk => ?_, fun hu hk => ?_, hc⟩
    · rw [hd, hu, desiredGain_uncal]
      rfl
    · obtain ⟨hu, -⟩ := ownMark_eq_true.mp (hmark.symm.trans hk)
      rw [hd, hu, hk, desiredGain_marked]
    · obtain ⟨-, hmin⟩ := Params.gMin_within hp
      rw [hd, hu, hk, desiredGain_plain]
      exact ⟨clampNat_within _ hmin, clampedQuotient_fits hmin (hlum c)⟩

end Sys2Proof.Machine
end

section
/-! SUPPORT. The gains: what a slew and a recompute keep of their range, and which commands move them or hand the driver port a
set: O52 and O57. -/

namespace Sys2Proof.Machine

/-! ### The range of gains at the engine (R138) -/

/-- Applied and ceilinged gains lie in 2048..4096: what `GainInv` says of the engine alone. -/
def Tge.GainsWithin (t : Tge) : Prop :=
  rgbWithin 2048 4096 t.applied ∧ ∀ g, t.ceiled = some g → rgbWithin 2048 4096 g

theorem gainInv_iff (s : State) : GainInv s ↔ s.paramsInRange ∧ s.tge.GainsWithin := Iff.rfl

/-- CRIT lowers a gain to no less than 2048 (R136). -/
theorem ceiledGain_within {g : Nat} (crit : Bool) (h : 2048 ≤ g ∧ g ≤ 4096) :
    2048 ≤ ceiledGain crit g ∧ ceiledGain crit g ≤ 4096 := by
  unfold ceiledGain
  split
  · omega
  · exact h

theorem desiredGain_within {p : Params} (hp : p.settingsInRange) (uncal mark : Bool) (target own : Nat) :
    2048 ≤ desiredGain p uncal mark target own ∧ desiredGain p uncal mark target own ≤ 4096 := by
  cases uncal with
  | true => exact Params.headroom_within hp
  | false =>
    cases mark with
    | true => rw [desiredGain_marked]; decide
    | false =>
      obtain ⟨hlo, hhi⟩ := Params.gMin_within hp
      obtain ⟨hmin, hmax⟩ := clampNat_within (gainQuotient target own) hhi
      exact ⟨hlo.trans hmin, hmax⟩

theorem Tge.recompute_gainsWithin {p : Params} {t : Tge} (hp : p.settingsInRange) (h : t.GainsWithin) :
    (t.recompute p).GainsWithin := by
  obtain ⟨happlied, hceiled⟩ := h
  cases ho : t.own with
  | none => rw [Tge.recompute_none p ho]; exact ⟨happlied, hceiled⟩
  | some own =>
    obtain ⟨_, _, _, _, -, -, -, hg, hchannels, -⟩ := t.recompute_channels p ho
    obtain ⟨-, -, -, hkept⟩ := Tge.recompute_inputs p t
    refine ⟨by rw [hkept]; exact happlied, fun g' h' => rgbWithin_iff.mpr fun c => ?_⟩
    obtain rfl := Option.some.inj (hg.symm.trans h')
    obtain ⟨-, -, -, hd, hc⟩ := hchannels c
    rw [hc, hd]
    exact ceiledGain_within _ (desiredGain_within hp _ _ _ _)

/-! ### One slew (R137) -/

/-- A slew step leaves a gain between itself and its goal. -/
theorem slewGain_between (slew : Nat) (crit : Bool) (goal g : Nat) :
    min goal g ≤ slewGain slew crit goal g ∧ slewGain slew crit goal g ≤ max goal g := by
  have h := slewGain_slewsTo slew crit goal g
  unfold SlewsTo at h
  split_ifs at h
  all_goals omega

/-- A gain rises by the slew step at most, and falls by no more than that, or under CRIT by no more than eight times it. -/
theorem slewGain_moves (slew : Nat) (crit : Bool) (goal g : Nat) :
    slewGain slew crit goal g ≤ g + slew ∧ g ≤ slewGain slew crit goal g + (if crit then 8 * slew else slew) := by
  have h := slewGain_slewsTo slew crit goal g
  unfold SlewsTo slewStepOf at h
  cases crit with
  | false =>
    simp only [Bool.false_and, Bool.false_eq_true, if_false] at h ⊢
    split_ifs at h
    all_goals omega
  | true =>
    simp only [Bool.true_and, decide_eq_true_eq, if_true] at h ⊢
    split_ifs at h
    all_goals omega

/-- From `old` to `new` no gain has risen by more than the slew step, or fallen by more than what CRIT allows. -/
def SlewBounded (p : Params) (crit : Bool) (old new : Rgb Nat) : Prop :=
  ∀ c : Channel, new.get c ≤ old.get c + p.slewStep ∧ old.get c ≤ new.get c + (if crit then 8 * p.slewStep else p.slewStep)

theorem SlewBounded.refl (p : Params) (crit : Bool) (g : Rgb Nat) : SlewBounded p crit g g := fun _ =>
  ⟨Nat.le_add_right _ _, Nat.le_add_right _ _⟩

theorem Tge.slew_bounded (p : Params) (t : Tge) : SlewBounded p t.crit t.applied (t.slew p).applied := by
  cases hg : t.ceiled with
  | none => simpa [Tge.slew, hg] using SlewBounded.refl p t.crit t.applied
  | some goal =>
    intro c
    simpa [Tge.slew, hg] using slewGain_moves p.slewStep t.crit (goal.get c) (t.applied.get c)

theorem Tge.slew_gainsWithin {p : Params} {t : Tge} (h : t.GainsWithin) : (t.slew p).GainsWithin := by
  obtain ⟨happlied, hceiled⟩ := h
  refine ⟨?_, fun g hg => hceiled g (by rw [Tge.slew_fields] at hg; exact hg)⟩
  cases hg : t.ceiled with
  | none => simpa [Tge.slew, hg] using happlied
  | some goal =>
    rw [rgbWithin_iff] at happlied ⊢
    intro c
    have hgoal := rgbWithin_iff.mp (hceiled goal hg) c
    have hc := happlied c
    have hbetween := slewGain_between p.slewStep t.crit (goal.get c) (t.applied.get c)
    simp only [Tge.slew, hg, Rgb.get_map₂]
    omega

/-! ### A tick -/

/-- Before loading ends a tick does not reach engine and driver port (R4). -/
theorem tick_unloaded {s : State} (hn : s.csto.loaded = none) : (tick s).tge = s.tge ∧ (tick s).drvp = s.drvp := by
  obtain ⟨f, w, n, h⟩ := tick_eq s
  have hengine : tickEngine f (tickPeers w s) = tickPeers w s := by simp [tickEngine, hn]
  rw [h]
  simp [tickIn, hengine]

/-- From then on it slews the engine as it stood, or as a changed contribution has left it (R137, R139). -/
theorem tick_slews {s : State} {p : Params} (hp : s.csto.loaded = some p) :
    ∃ e : Tge, (e = s.tge ∨ ∃ peers, e = ({ s.tge with peers := peers } : Tge).recompute p) ∧ (tick s).tge = e.slew p := by
  obtain ⟨f, w, n, h⟩ := tick_eq s
  obtain ⟨-, htge, -⟩ := tickIn_blocks f w hp
  have hpeers : (tickPeers w s).tge = s.tge := by simp
  have hloaded : (tickPeers w s).csto.loaded = some p := by simpa using hp
  rw [h, State.setFreeReads_tge, htge]
  rcases tickEngine_tge f hloaded with e | ⟨-, e⟩
  · exact ⟨_, .inl hpeers, e⟩
  · rw [hpeers] at e
    exact ⟨_, .inr ⟨_, rfl⟩, e⟩

theorem tick_bounded {s : State} {p : Params} (hp : s.csto.loaded = some p) :
    SlewBounded p s.tge.crit s.tge.applied (tick s).tge.applied := by
  obtain ⟨e, he, ht⟩ := tick_slews hp
  rw [ht]
  rcases he with rfl | ⟨peers, rfl⟩
  · exact Tge.slew_bounded p _
  · obtain ⟨-, -, hcrit, happlied⟩ := Tge.recompute_inputs p { s.tge with peers := peers }
    have hb := Tge.slew_bounded p (({ s.tge with peers := peers } : Tge).recompute p)
    rwa [hcrit, happlied] at hb

/-! ### The invariant under an event and its hand-off -/

/-- The loaded copy and the engine are the same in both: all that `GainInv` reads. -/
theorem GainInv.congr {s t : State} (h : GainInv s) (hc : t.csto.loaded = s.csto.loaded) (he : t.tge = s.tge) : GainInv t := by
  rw [gainInv_iff, State.paramsInRange, hc, he]
  exact h

theorem gainInv_settle {x : State} (h : GainInv x) : GainInv (settle x) := by
  obtain ⟨hp, hg⟩ := h
  rw [gainInv_iff, State.paramsInRange, settle_csto]
  refine ⟨hp, ?_⟩
  cases hc : x.csto.loaded with
  | none => rw [settle_tge_unloaded (.inl hc)]; exact hg
  | some p =>
    cases hl : x.lest.l with
    | none => rw [settle_tge_unloaded (.inr hl)]; exact hg
    | some l =>
      have hengine : (x.takeFlags.engine p l).GainsWithin := by
        unfold State.engine
        split
        · exact hg
        · exact Tge.recompute_gainsWithin (t := x.takeFlags.inputs l) (hp p hc).1 hg
      rw [settle_tge hc hl]
      exact hengine

theorem gainInv_tick {s : State} (h : GainInv s) : GainInv (tick s) := by
  obtain ⟨hp, hg⟩ := h
  rw [gainInv_iff, State.paramsInRange, show (tick s).csto = s.csto by simp]
  refine ⟨hp, ?_⟩
  cases hc : s.csto.loaded with
  | none => rw [(tick_unloaded hc).1]; exact hg
  | some p =>
    obtain ⟨e, he, ht⟩ := tick_slews hc
    rw [ht]
    refine Tge.slew_gainsWithin ?_
    rcases he with rfl | ⟨peers, rfl⟩
    · exact hg
    · exact Tge.recompute_gainsWithin (t := { s.tge with peers := peers }) (hp p hc).1 hg

theorem gainInv_resetState (s : State) : GainInv (resetState s) :=
  ⟨fun _ h => (nomatch h), by simp [rgbWithin, resetState, Tge.reset, Rgb.all], fun _ h => (nomatch h)⟩

/-- The gains of the end of loading are 16 × h (R140). -/
theorem gainInv_endOfLoading {s : State} (h : GainInv s) : GainInv (endOfLoading (loadParams s.csto.array) s) := by
  obtain ⟨-, -, hceiled⟩ := h
  have hp := loadParams_inRange s.csto.array
  rw [endOfLoading_eq]
  refine gainInv_settle ((gainInv_iff _).mpr ⟨fun q hq => ?_, ?_⟩)
  · have hloaded : (loadingTaken (loadParams s.csto.array) s).csto.loaded = some (loadParams s.csto.array) := by
      simp [loadingTaken]
    obtain rfl := Option.some.inj (hloaded.symm.trans hq)
    exact hp
  · rw [loadingTaken_tge]
    refine ⟨rgbWithin_iff.mpr fun c => ?_, hceiled⟩
    rw [Rgb.get_all]
    exact Params.headroom_within hp.1

/-! ### Commands that only hand on -/

/-- The loaded copy is the same in both, and the engine is too, or it is what the hand-off of an event makes of it that has itself
left loaded copy and engine (R126, R127). -/
def RecomputesAtMost (s t : State) : Prop :=
  t.csto.loaded = s.csto.loaded ∧
    (t.tge = s.tge ∨ ∃ x, x.csto.loaded = s.csto.loaded ∧ x.tge = s.tge ∧ t.tge = (settle x).tge)

theorem RecomputesAtMost.refl (s : State) : RecomputesAtMost s s := ⟨rfl, .inl rfl⟩

theorem recomputesAtMost_settle {s x : State} (hc : x.csto.loaded = s.csto.loaded) (he : x.tge = s.tge) :
    RecomputesAtMost s (settle x) := ⟨by rw [settle_csto, hc], .inr ⟨x, hc, he, rfl⟩⟩

/-- A hand-off leaves the applied gains to the next tick (R127, R137). -/
theorem RecomputesAtMost.applied {s t : State} (h : RecomputesAtMost s t) : t.tge.applied = s.tge.applied := by
  obtain ⟨-, ht | ⟨x, -, he, ht⟩⟩ := h
  · rw [ht]
  · rw [ht, settle_applied, he]

theorem RecomputesAtMost.gainInv {s t : State} (h : RecomputesAtMost s t) (hs : GainInv s) : GainInv t := by
  obtain ⟨hc, ht | ⟨x, hx, he, ht⟩⟩ := h
  · exact hs.congr hc ht
  · exact (gainInv_settle (hs.congr hx he)).congr (by rw [settle_csto, hc, hx]) ht

theorem recomputesAtMost_windowClose (s : State) : RecomputesAtMost s (windowClose s) := by
  unfold windowClose
  split
  · exact .refl s
  · exact .refl s
  · exact recomputesAtMost_settle rfl rfl
  · exact recomputesAtMost_settle rfl rfl

theorem recomputesAtMost_settleTimeout (s : State) : RecomputesAtMost s (settleTimeout s) := by
  unfold settleTimeout
  split
  · split
    · exact recomputesAtMost_settle rfl rfl
    · exact .refl s
  · exact .refl s

theorem recomputesAtMost_temperatureRead (o : Option Int) (s : State) : RecomputesAtMost s (temperatureRead o s) := by
  unfold temperatureRead
  split
  · exact recomputesAtMost_settle (x := busNext (temperatureTaken o s)) (by simp [temperatureTaken]) (by simp [temperatureTaken])
  · exact .refl s

theorem recomputesAtMost_countArrival (o : Option (BitVec 16)) (s : State) : RecomputesAtMost s (countArrival o s) := by
  unfold countArrival
  split
  · exact recomputesAtMost_settle (by simp) (by simp)
  · exact .refl s

theorem recomputesAtMost_slotStale (s : State) : RecomputesAtMost s (slotStale s) := by
  unfold slotStale
  split
  · exact recomputesAtMost_settle (by simp) (by simp)
  · exact .refl s

theorem recomputesAtMost_closeFrame {s y : State} (hc : y.csto = s.csto) (he : y.tge = s.tge) (w : Window) :
    RecomputesAtMost s (closeFrame w y) := by
  refine recomputesAtMost_settle ?_ ?_
  all_goals
    dsimp only [State.setSid_csto, State.setSlc_csto, State.setSid_tge, State.setSlc_tge]
    split
    · simp [hc, he]
    · simp [hc, he]

theorem recomputesAtMost_frameEof (s : State) : RecomputesAtMost s (frameEof s) := by
  unfold frameEof
  split
  · split
    · exact recomputesAtMost_closeFrame rfl rfl _
    · exact .refl s
  · exact .refl s

theorem recomputesAtMost_busStuckClear (s : State) : RecomputesAtMost s (busStuckClear s) := by
  dsimp only [busStuckClear]
  split
  · split
    · exact recomputesAtMost_closeFrame rfl rfl _
    · exact ⟨by simp, .inl (by simp)⟩
  · exact .refl s

theorem recomputesAtMost_noticeReceived (f : Frame) (s : State) : RecomputesAtMost s (frameReceived f (fun _ => settle) s) := by
  dsimp only [frameReceived]
  split
  · split
    · split
      · exact ⟨by simp, .inr ⟨deliver f (receiveMain f s), by simp, by simp, by simp⟩⟩
      · exact ⟨by simp, .inl (by simp)⟩
    · exact ⟨by simp, .inl (by simp)⟩
  · exact .refl s

theorem recomputesAtMost_whenLive {s a t : State} (h : whenLive s a = .next t) (ha : RecomputesAtMost s a) :
    RecomputesAtMost s t := whenLive_next h (.refl s) ha

/-! ### Every command -/

/-- The commands that can move the applied gains: reset, end of loading, and the two rows of the tick (R4, R140, R146). -/
def movesGains : Instr → Bool
  | .reset | .endOfLoading | .fsyncEdge _ | .substituteTick => true
  | _ => false

theorem exec_recomputesAtMost {c : Instr} {s t : State} (hc : movesGains c = false) (h : exec c s = .next t) :
    RecomputesAtMost s t := by
  by_cases hh : endsInHandOff c = true
  · cases c with
    | reset | endOfLoading | fsyncEdge | substituteTick => cases hc
    | temperatureReadCompletion o => exact recomputesAtMost_whenLive h (recomputesAtMost_temperatureRead o s)
    | senseWindowClose => exact recomputesAtMost_whenLive h (recomputesAtMost_windowClose s)
    | countArrival o => exact recomputesAtMost_whenLive h (recomputesAtMost_countArrival o s)
    | settleTimeout => exact recomputesAtMost_whenLive h (recomputesAtMost_settleTimeout s)
    | noticeReceived => exact recomputesAtMost_whenLive h (recomputesAtMost_noticeReceived _ s)
    | frameEof => exact recomputesAtMost_whenLive h (recomputesAtMost_frameEof s)
    | slotStale => exact recomputesAtMost_whenLive h (recomputesAtMost_slotStale s)
    | busStuckClear => exact recomputesAtMost_whenLive h (recomputesAtMost_busStuckClear s)
    | _ => cases hh
  · obtain ⟨hloaded, -, -, -, -, -, htge⟩ := exec_keepsViewed (by simpa using hh) h
    exact ⟨hloaded, .inl htge⟩

theorem gainInv_fsyncEdge {s : State} (h : GainInv s) (m : Nat) : GainInv (fsyncEdge m s) := by
  unfold fsyncEdge
  split
  · exact gainInv_settle (gainInv_tick (h.congr rfl rfl))
  · exact h

theorem gainInv_substituteTick {s : State} (h : GainInv s) : GainInv (substituteTick s) := by
  unfold substituteTick
  split
  · exact h
  · exact gainInv_settle (gainInv_tick (h.congr rfl rfl))

theorem exec_gainInv {c : Instr} {s t : State} (hs : GainInv s) (h : exec c s = .next t) : GainInv t := by
  by_cases hc : movesGains c = true
  · cases c with
    | reset => exact Host.Outcome.next.inj h ▸ gainInv_resetState s
    | endOfLoading =>
      refine whenLive_next h hs ?_
      split
      · exact gainInv_endOfLoading hs
      · exact hs
    | fsyncEdge m => exact whenLive_next h hs (gainInv_fsyncEdge hs m)
    | substituteTick => exact whenLive_next h hs (gainInv_substituteTick hs)
    | _ => cases hc
  · exact (exec_recomputesAtMost (by simpa using hc) h).gainInv hs

/-- Settles O52: a recompute gives ceilinged gains in range, a slew stays between gain and goal, and loading starts in range. -/
theorem gainInvariantKept : Obligations.GainInvariantKept := by
  unfold Obligations.GainInvariantKept
  intro s t hs h
  rcases step_cases h with rfl | rfl | ⟨c, rest, h⟩
  · exact hs
  · exact hs
  · exact exec_gainInv (s := s.setPending rest) hs h

/-! ### The driver port -/

/-- No other command than those that move gains hands the port a set, and only the end of a transfer moves it (R140 to R142). -/
theorem exec_keepsPort {c : Instr} {s t : State} (hc : movesGains c = false) (hd : c ≠ .driverTransferComplete)
    (h : exec c s = .next t) : t.drvp = s.drvp := by
  have hlive {a : State} (h : whenLive s a = .next t) (ha : a.drvp = s.drvp) : t.drvp = s.drvp :=
    whenLive_next (P := fun u => u.drvp = s.drvp) h rfl ha
  cases c with
  | reset | endOfLoading | fsyncEdge | substituteTick => cases hc
  | driverTransferComplete => exact absurd rfl hd
  | resetRelease =>
    obtain rfl := Host.Outcome.next.inj h
    split
    · rfl
    · rfl
  | pollTimerExpiry | receiverReady | arbitrationLoss | bitError | sendSymbolError | malformedFrame | reportTimerDue
  | spacingCountFull =>
    refine hlive h ?_
    split
    · simp
    · rfl
  | arm | disarm | burn | lock | unknownCommand => exact hlive h (by simp [fixtureReceived])
  | capability | status | statusClear | identity | gains | targets | storeState | page | unknownSelector =>
    exact hlive h (by simp [askReceived])
  | _ => exact hlive h (by simp)

/-! ### Every step -/

/-- The applied gains and the driver port are the same in both. -/
def KeepsGains (s t : State) : Prop := t.tge.applied = s.tge.applied ∧ t.drvp = s.drvp

theorem KeepsGains.refl (s : State) : KeepsGains s s := ⟨rfl, rfl⟩

/-- A tick before loading ends, with the timebase at `x` (R4, R127). -/
theorem keepsGains_settle_tick {s : State} (x : Ftb) (hn : s.csto.loaded = none) : KeepsGains s (settle (tick (s.setFtb x))) := by
  obtain ⟨htge, hdrvp⟩ := tick_unloaded (s := s.setFtb x) hn
  exact ⟨by rw [settle_applied, htge, State.setFtb_tge], by rw [settle_drvp, hdrvp, State.setFtb_drvp]⟩

theorem settle_tick_bounded {s : State} {p : Params} (x : Ftb) (hp : s.csto.loaded = some p) :
    SlewBounded p s.tge.crit s.tge.applied (settle (tick (s.setFtb x))).tge.applied := by
  rw [settle_applied]
  exact tick_bounded (s := s.setFtb x) hp

theorem Ftb.accepts_iff {f : Ftb} {m : Nat} : f.accepts m = true ↔ ∀ e, f.lastEdge = some e → e + 4000 ≤ m := by
  refine ⟨fun h e he => ?_, Ftb.accepts_eq_true⟩
  simp only [Ftb.accepts, he, decide_eq_true_eq] at h
  omega

/-- An edge is a tick after loading, or it leaves gains and port: as a glitch, or before loading ends. -/
theorem fsyncEdge_gains (m : Nat) (s : State) :
    KeepsGains s (fsyncEdge m s) ∨ s.csto.loaded.isSome ∧ ∀ e, s.ftb.lastEdge = some e → e + 4000 ≤ m := by
  unfold fsyncEdge
  split
  next h =>
    cases hp : s.csto.loaded with
    | none => exact .inl (keepsGains_settle_tick _ hp)
    | some p => exact .inr ⟨rfl, Ftb.accepts_iff.mp h⟩
  next => exact .inl (.refl s)

theorem substituteTick_gains (s : State) : KeepsGains s (substituteTick s) ∨ s.csto.loaded.isSome := by
  unfold substituteTick
  split
  · exact .inl (.refl s)
  · cases hp : s.csto.loaded with
    | none => exact .inl (keepsGains_settle_tick _ hp)
    | some p => exact .inr rfl

theorem fsyncEdge_bounded {s : State} {p : Params} (m : Nat) (hp : s.csto.loaded = some p) :
    SlewBounded p s.tge.crit s.tge.applied (fsyncEdge m s).tge.applied := by
  unfold fsyncEdge
  split
  · exact settle_tick_bounded _ hp
  · exact .refl _ _ _

theorem substituteTick_bounded {s : State} {p : Params} (hp : s.csto.loaded = some p) :
    SlewBounded p s.tge.crit s.tge.applied (substituteTick s).tge.applied := by
  unfold substituteTick
  split
  · exact .refl _ _ _
  · exact settle_tick_bounded _ hp

/-- The command is a reset, the end of a load, or a tick after loading: a substitute tick or an accepted edge (R1, R2, R140, R146). -/
def StartsOrTicks (c : Instr) (s : State) : Prop :=
  c = .reset ∨ (c = .endOfLoading ∧ s.csto.loaded = none) ∨ (c = .substituteTick ∧ s.csto.loaded.isSome) ∨
    ∃ m, c = .fsyncEdge m ∧ s.csto.loaded.isSome ∧ ∀ e, s.ftb.lastEdge = some e → e + 4000 ≤ m

/-- Every other command leaves the applied gains, and the port but for the end of a transfer. -/
theorem exec_gains {c : Instr} {s t : State} (h : exec c s = .next t) :
    (t.tge.applied = s.tge.applied ∧ (t.drvp = s.drvp ∨ t.drvp = s.drvp.complete ∧ c = .driverTransferComplete)) ∨
      StartsOrTicks c s := by
  have hkept : KeepsGains s t → (t.tge.applied = s.tge.applied ∧
      (t.drvp = s.drvp ∨ t.drvp = s.drvp.complete ∧ c = .driverTransferComplete)) ∨ StartsOrTicks c s :=
    fun ⟨happlied, hport⟩ => .inl ⟨happlied, .inl hport⟩
  by_cases hc : movesGains c = true
  · cases c with
    | reset => exact .inr (.inl rfl)
    | endOfLoading =>
      cases hl : s.csto.loaded with
      | none => exact .inr (.inr (.inl ⟨rfl, hl⟩))
      | some p => exact hkept (whenLive_next h (.refl s) (by simp [hl, KeepsGains]))
    | substituteTick =>
      rcases substituteTick_gains s with k | hl
      · exact hkept (whenLive_next h (.refl s) k)
      · exact .inr (.inr (.inr (.inl ⟨rfl, hl⟩)))
    | fsyncEdge m =>
      rcases fsyncEdge_gains m s with k | hl
      · exact hkept (whenLive_next h (.refl s) k)
      · exact .inr (.inr (.inr (.inr ⟨m, rfl, hl⟩)))
    | _ => cases hc
  · have hc' : movesGains c = false := by simpa using hc
    refine .inl ⟨(exec_recomputesAtMost hc' h).applied, ?_⟩
    by_cases hd : c = .driverTransferComplete
    · subst hd
      exact whenLive_next (P := fun u : State => u.drvp = s.drvp ∨ u.drvp = s.drvp.complete ∧ _) h (.inl rfl) (.inr ⟨rfl, rfl⟩)
    · exact .inl (exec_keepsPort hc' hd h)

/-- Reset and the end of a load apart, every command moves the applied gains by what one slew allows (R137). -/
theorem exec_bounded {c : Instr} {s t : State} {p : Params} (hs : s.csto.loaded = some p) (ht : t.csto.loaded = some p)
    (h : exec c s = .next t) : SlewBounded p s.tge.crit s.tge.applied t.tge.applied := by
  have hlive {a : State} (h : whenLive s a = .next t) (ha : SlewBounded p s.tge.crit s.tge.applied a.tge.applied) :
      SlewBounded p s.tge.crit s.tge.applied t.tge.applied :=
    whenLive_next (P := fun u => SlewBounded p s.tge.crit s.tge.applied u.tge.applied) h (.refl _ _ _) ha
  rcases exec_gains h with ⟨happlied, -⟩ | rfl | ⟨rfl, hn⟩ | ⟨rfl, -⟩ | ⟨m, rfl, -⟩
  · rw [happlied]
    exact .refl _ _ _
  · obtain rfl := Host.Outcome.next.inj h
    exact nomatch ht
  · exact absurd (hn.symm.trans hs) (by simp)
  · exact hlive h (substituteTick_bounded hs)
  · exact hlive h (fsyncEdge_bounded m hs)

/-- Settles O57: the front command moves gains and port as `exec_gains` says, and the gains by what `exec_bounded` allows; line
time moves neither. -/
theorem gainsMoveByTheSlewStep : Obligations.GainsMoveByTheSlewStep := by
  unfold Obligations.GainsMoveByTheSlewStep
  refine ⟨fun s t h => ?moves, fun s t p hs ht h => ?bounded⟩
  case moves =>
    cases hq : s.pending with
    | nil =>
      rw [step_of_idle hq] at h
      exact .inl (whenLive_next (P := fun u : State => u.tge.applied = s.tge.applied ∧ (u.drvp = s.drvp ∨ _)) h
        ⟨rfl, .inl rfl⟩ ⟨rfl, .inl rfl⟩)
    | cons c rest =>
      rw [step_of_pending hq] at h
      rcases exec_gains h with ⟨happlied, hport⟩ | hc
      · exact .inl ⟨happlied, hport.imp_right fun ⟨hd, he⟩ => ⟨hd, rest, he ▸ rfl⟩⟩
      · exact .inr ⟨c, rest, rfl, hc⟩
  case bounded =>
    rcases step_cases h with rfl | rfl | ⟨c, rest, h⟩
    · exact SlewBounded.refl _ _ _
    · exact SlewBounded.refl _ _ _
    · exact exec_bounded (s := s.setPending rest) hs ht h

end Sys2Proof.Machine
end

section
/-! SUPPORT. Median and target of a channel, from the sorted members: O15. -/

namespace Sys2Proof.Machine

/-! ### The sorted members -/

/-- One channel's members in rising order. -/
def sortedMembers (values : List Nat) : List Nat := values.insertionSort (· ≤ ·)

theorem sortedMembers_perm (values : List Nat) : (sortedMembers values).Perm values := List.perm_insertionSort _ _

theorem sortedMembers_pairwise (values : List Nat) : (sortedMembers values).Pairwise (· ≤ ·) := List.pairwise_insertionSort _ _

@[simp] theorem sortedMembers_length (values : List Nat) : (sortedMembers values).length = values.length :=
  List.length_insertionSort _ _

theorem mem_sortedMembers {values : List Nat} {v : Nat} : v ∈ sortedMembers values ↔ v ∈ values := List.mem_insertionSort _

/-- The order in which the members stand is lost. -/
theorem sortedMembers_congr {values other : List Nat} (h : values.Perm other) : sortedMembers other = sortedMembers values :=
  List.Perm.eq_of_pairwise' (sortedMembers_pairwise _) (sortedMembers_pairwise _)
    ((sortedMembers_perm other).trans (h.symm.trans (sortedMembers_perm values).symm))

/-! ### The median (R129 to R131) -/

theorem medianOf_eq (own : Nat) (values : List Nat) :
    medianOf own values =
      if values.length = 0 then own
      else if values.length ≤ 2 then (sortedMembers values).getD 0 0
      else (sortedMembers values).getD ((values.length - 1) / 2) 0 := by
  simp only [medianOf, List.length_insertionSort]
  rfl

theorem medianOf_nil (own : Nat) : medianOf own [] = own := rfl

/-- With one or two members the median is a member, and the smallest (R130). -/
theorem medianOf_few {values : List Nat} (own : Nat) (h₁ : 1 ≤ values.length) (h₂ : values.length ≤ 2) :
    medianOf own values ∈ values ∧ ∀ v ∈ values, medianOf own values ≤ v := by
  rw [medianOf_eq, if_neg (by omega), if_pos h₂]
  have hlen := sortedMembers_length values
  have hsorted := sortedMembers_pairwise values
  simp only [← mem_sortedMembers (values := values)]
  cases hs : sortedMembers values with
  | nil =>
    rw [hs, List.length_nil] at hlen
    omega
  | cons x rest =>
    rw [hs] at hsorted
    obtain ⟨hx, -⟩ := List.pairwise_cons.mp hsorted
    simpa using hx

/-- From three members on the median stands at index (n − 1) div 2 of the sorted members (R131). -/
theorem medianOf_many {values : List Nat} (own : Nat) (h : 3 ≤ values.length) :
    (sortedMembers values)[(values.length - 1) / 2]? = some (medianOf own values) := by
  have hlt : (values.length - 1) / 2 < (sortedMembers values).length := by rw [sortedMembers_length]; omega
  rw [medianOf_eq, if_neg (by omega), if_neg (by omega), List.getD_eq_getElem _ _ hlt, List.getElem?_eq_getElem hlt]

theorem medianOf_many_mem {values : List Nat} (own : Nat) (h : 3 ≤ values.length) : medianOf own values ∈ values :=
  mem_sortedMembers.mp (List.mem_of_getElem? (medianOf_many own h))

/-! ### The steering member (R130, R131) -/

theorem isOutlier_eq_false {phi median v : Nat} : isOutlier phi median v = false ↔ median * phi ≤ v * 256 := by
  simp [isOutlier]

theorem steering_eq (phi own : Nat) (values : List Nat) :
    steering phi own values =
      if values.length ≤ 2 then medianOf own values
      else ((sortedMembers values).find? fun v => !isOutlier phi (medianOf own values) v).getD (medianOf own values) := by
  simp only [steering, List.length_insertionSort]
  rfl

/-- The first of a sorted list that passes a test is the smallest that does. -/
theorem find?_le_of_sorted {l : List Nat} {f : Nat → Bool} {x v : Nat} (hl : l.Pairwise (· ≤ ·)) (hx : l.find? f = some x)
    (hv : v ∈ l) (hf : f v = true) : x ≤ v := by
  obtain ⟨-, before, after, rfl, hbefore⟩ := List.find?_eq_some_iff_append.mp hx
  obtain ⟨-, hafter, -⟩ := List.pairwise_append.mp hl
  obtain ⟨hle, -⟩ := List.pairwise_cons.mp hafter
  rcases List.mem_append.mp hv with h | h
  · exact absurd hf (by simpa using hbefore v h)
  · rcases List.mem_cons.mp h with rfl | h
    · exact Nat.le_refl _
    · exact hle v h

/-- From three members on the smallest member that is no outlier steers (R131): the median is none, so that there is one. -/
theorem steering_many {phi : Nat} {values : List Nat} (own : Nat) (hphi : phi < 256) (h : 3 ≤ values.length) :
    steering phi own values ∈ values ∧ medianOf own values * phi ≤ steering phi own values * 256 ∧
      ∀ v ∈ values, medianOf own values * phi ≤ v * 256 → steering phi own values ≤ v := by
  have hmem := medianOf_many_mem own h
  have hmedian : medianOf own values * phi ≤ medianOf own values * 256 := Nat.mul_le_mul_left _ (by omega)
  rw [steering_eq, if_neg (by omega)]
  generalize medianOf own values = m at hmem hmedian
  cases hfind : (sortedMembers values).find? fun v => !isOutlier phi m v with
  | none =>
    have hout := List.find?_eq_none.mp hfind m (mem_sortedMembers.mpr hmem)
    exact absurd (isOutlier_eq_false.mpr hmedian) (by simpa using hout)
  | some x =>
    have hx : isOutlier phi m x = false := by simpa using List.find?_some hfind
    refine ⟨mem_sortedMembers.mp (List.mem_of_find?_eq_some hfind), isOutlier_eq_false.mp hx, fun v hv hfits => ?_⟩
    exact find?_le_of_sorted (sortedMembers_pairwise values) hfind (mem_sortedMembers.mpr hv)
      (by simpa using isOutlier_eq_false.mpr hfits)

/-- Up to two members the median itself steers (R129, R130). -/
theorem steering_few {values : List Nat} (phi own : Nat) (h : values.length ≤ 2) :
    steering phi own values = medianOf own values := by rw [steering_eq, if_pos h]

/-- No member steers from above the median. -/
theorem steering_le_medianOf {phi : Nat} (own : Nat) (values : List Nat) (hphi : phi < 256) :
    steering phi own values ≤ medianOf own values := by
  by_cases h : values.length ≤ 2
  · rw [steering_few phi own h]
  · obtain ⟨-, -, hleast⟩ := steering_many own hphi (show 3 ≤ values.length by omega)
    exact hleast _ (medianOf_many_mem own (by omega)) (Nat.mul_le_mul_left _ (by omega))

/-- Settles O15: median and steering member by the number of members, both from the sorted members alone. -/
theorem targetFollowsSmallestReachable : Obligations.TargetFollowsSmallestReachable := by
  unfold Obligations.TargetFollowsSmallestReachable
  intro h phi own values other _ hphi hperm
  have hmedian : medianOf own other = medianOf own values := by
    rw [medianOf_eq, medianOf_eq, sortedMembers_congr hperm, hperm.length_eq]
  refine ⟨?bound, ?none, fun h₁ h₂ => ?few, fun h₃ => ⟨?rank, ?steers⟩, ?order, hmedian⟩
  case bound => exact Nat.div_le_div_right (Nat.mul_le_mul_right h (steering_le_medianOf own values hphi))
  case none =>
    rintro rfl
    exact ⟨medianOf_nil own, rfl⟩
  case few =>
    obtain ⟨hmem, hleast⟩ := medianOf_few own h₁ h₂
    exact ⟨hmem, hleast, by rw [targetOf, steering_few phi own h₂]⟩
  case rank => exact ⟨_, sortedMembers_perm values, sortedMembers_pairwise values, medianOf_many own h₃⟩
  case steers =>
    obtain ⟨hmem, hfits, hleast⟩ := steering_many own hphi h₃
    exact ⟨_, hmem, rfl, hfits, steering_le_medianOf own values hphi, hleast⟩
  case order =>
    rw [targetOf, targetOf, steering_eq, steering_eq, sortedMembers_congr hperm, hmedian, hperm.length_eq]

end Sys2Proof.Machine
end

section
/-! SUPPORT. The driver port: a set that arrives, and a transfer that completes: O17. -/

namespace Sys2Proof.Machine

/-! ### An arrival (R141) -/

theorem Drvp.arrive_idle {d : Drvp} (g : Rgb Nat) (h : d.sending = none) : d.arrive g = { d with sending := some g } := by
  simp [Drvp.arrive, h]

theorem Drvp.arrive_sending {d : Drvp} (g : Rgb Nat) (h : d.sending.isSome) : d.arrive g = { d with pending := some g } := by
  obtain ⟨x, hx⟩ := Option.isSome_iff_exists.mp h
  simp [Drvp.arrive, hx]

theorem Drvp.arrive_latched (d : Drvp) (g : Rgb Nat) : (d.arrive g).latched = d.latched := by
  unfold Drvp.arrive
  split
  · rfl
  · rfl

/-! ### A completion (R142) -/

theorem Drvp.complete_sending {d : Drvp} {x : Rgb Nat} (h : d.sending = some x) :
    d.complete = { sending := d.pending, pending := none, latched := transferBits x } := by simp [Drvp.complete, h]

@[simp] theorem gainBits_length (g : Nat) : (gainBits g).length = 13 := by simp [gainBits]

/-- A code's most significant bit goes first. -/
theorem gainBits_getElem? {k : Nat} (g : Nat) (h : k < 13) : (gainBits g)[k]? = some (g.testBit (12 - k)) := by
  simp [gainBits, h]

theorem transferBits_length (g : Rgb Nat) : (transferBits g).length = 39 := by simp [transferBits]

/-- The code of R goes first, then those of G and B. -/
theorem transferBits_getElem? {k : Nat} (g : Rgb Nat) (h : k < 13) :
    (transferBits g)[k]? = some (g.r.testBit (12 - k)) ∧ (transferBits g)[13 + k]? = some (g.g.testBit (12 - k)) ∧
      (transferBits g)[26 + k]? = some (g.b.testBit (12 - k)) := by
  unfold transferBits
  refine ⟨?_, ?_, ?_⟩
  · rw [List.append_assoc, List.getElem?_append_left (by simpa using h), gainBits_getElem? _ h]
  · rw [List.append_assoc, List.getElem?_append_right (by simp), List.getElem?_append_left (by simp; omega)]
    simpa using gainBits_getElem? g.g h
  · rw [List.getElem?_append_right (by simp)]
    simpa using gainBits_getElem? g.b h

/-- An arrival just before a completion, or just after it: the new set is in transfer, the older one latched. -/
theorem Drvp.arrive_complete_comm {d : Drvp} (g : Rgb Nat) (hs : d.sending.isSome) (hp : d.pending = none) :
    (d.arrive g).complete = d.complete.arrive g ∧ (d.arrive g).complete.sending = some g := by
  obtain ⟨x, hx⟩ := Option.isSome_iff_exists.mp hs
  have hbefore : (d.arrive g).complete = { sending := some g, pending := none, latched := transferBits x } := by
    rw [Drvp.arrive_sending g hs]
    exact Drvp.complete_sending hx
  have hidle : d.complete.sending = none := by rw [Drvp.complete_sending hx]; exact hp
  refine ⟨?_, by rw [hbefore]⟩
  rw [hbefore, Drvp.arrive_idle g hidle, Drvp.complete_sending hx]

/-- Settles O17: arrivals by whether a transfer runs, and the bits of the one that completes. -/
theorem transferGivesThirtyNineBits : Obligations.TransferGivesThirtyNineBits := by
  unfold Obligations.TransferGivesThirtyNineBits
  refine ⟨fun d g => ⟨fun h => ?idle, fun h => ?sending, d.arrive_latched g, fun old h => ?newer,
    Drvp.arrive_complete_comm g⟩, fun s g hlive hs => ?completes⟩
  case idle => rw [Drvp.arrive_idle g h]; exact ⟨rfl, rfl⟩
  case sending => rw [Drvp.arrive_sending g h]; exact ⟨rfl, rfl⟩
  case newer => rw [Drvp.arrive_sending old h, Drvp.arrive_sending g h]; exact Drvp.arrive_sending g h
  case completes =>
    have hbits := Drvp.complete_sending hs
    refine ⟨s.setDrvp s.drvp.complete, whenLive_of_live hlive, ?_⟩
    rw [State.setDrvp_drvp, hbits]
    exact ⟨rfl, rfl, transferBits_length g, fun k hk => transferBits_getElem? g hk,
      fun b hb => by cases b <;> simp_all [SameBlock]⟩

end Sys2Proof.Machine
end

section
/-! SUPPORT. The stuck line: what its pulse is at the receiver, the HUNT it leads to, and its end: O45. -/

namespace Sys2Proof.Machine

/-! ### BUS_STUCK at the event unit (R173) -/

theorem conditions_stuck (s : State) : s.conditions.getLsbD 12 = s.fc.busStuck := by
  simp only [State.conditions, BitVec.getLsbD_or, entryIf_getLsbD (show 12 < 16 by decide)]
  simp

theorem handEvents_stuck (pulses : EventSet) (s : State) : (handEvents pulses s).evu.raw.getLsbD 12 = s.fc.busStuck := by
  rw [handEvents_raw, handEvents_conditions, conditions_stuck]

/-! ### The line has been dominant for too long -/

/-- The pulse that holds the line is one receive error in a frame or a reply window, and none elsewhere (R51, R59, R66). -/
theorem stuckPulse_cases (d : Nat) (s : State) :
    stuckPulse d s = s ∨
      ¬(s.slc.phase = .hunt ∨ s.slc.phase = .ready) ∧ ∃ l, stuckPulse d s = confine Fc.receiveError (s.setSlc l) := by
  unfold stuckPulse
  split
  next hp => exact .inr ⟨by simp [hp], _, rfl⟩
  next hp _ => exact .inr ⟨by simp [hp], _, rfl⟩
  next => exact .inl rfl

theorem stuckPulse_fc (d : Nat) (s : State) :
    (stuckPulse d s).fc = s.fc ∨
      ¬(s.slc.phase = .hunt ∨ s.slc.phase = .ready) ∧
        (stuckPulse d s).fc = { s.fc with recCount := min 255 (s.fc.recCount + 1) } := by
  rcases stuckPulse_cases d s with h | ⟨hp, l, h⟩
  · exact .inl (by rw [h])
  · obtain ⟨-, hfc, -⟩ := receiveError_moves s l
    exact .inr ⟨hp, by rw [h, hfc]⟩

/-- The pulse moves one count of fault confinement, REC, by one receive error at most (R148). -/
theorem stuckPulse_counts (d : Nat) {s : State} (hrec : s.fc.recCount ≤ 255) :
    (stuckPulse d s).fc.tec = s.fc.tec ∧ (stuckPulse d s).fc.link = s.fc.link ∧
      s.fc.recCount ≤ (stuckPulse d s).fc.recCount ∧ (stuckPulse d s).fc.recCount ≤ s.fc.recCount + 1 ∧
      (s.slc.phase = .hunt ∨ s.slc.phase = .ready → (stuckPulse d s).fc.recCount = s.fc.recCount) := by
  rcases stuckPulse_fc d s with h | ⟨hp, h⟩
  · rw [h]
    exact ⟨rfl, rfl, le_rfl, Nat.le_succ _, fun _ => rfl⟩
  · rw [h]
    exact ⟨rfl, rfl, le_min hrec (Nat.le_succ _), min_le_right _ _, fun hquiet => absurd hquiet hp⟩

/-- Under BUS_STUCK the station sends nothing (R157). -/
theorem Slc.stuck_tx (l : Slc) : l.stuck.tx = none := by
  unfold Slc.stuck
  dsimp only
  split
  · rfl
  next h => simpa using h

theorem busStuckSet_eq {d : Nat} {s : State} (hd : 1000 < d) (hr : s.slc.driver = .released) :
    busStuckSet d s =
      handEvents 0 (((stuckPulse d s).setSlc (stuckPulse d s).slc.stuck).setFc ((stuckPulse d s).fc.stuck d)) :=
  if_pos (by simp [hd, hr])

/-! ### The line is recessive again -/

/-- A frame that closes leaves the receiver in READY, and the raw set as fault confinement has BUS_STUCK. -/
theorem closeFrame_ready (w : Window) (s : State) :
    (closeFrame w s).slc.phase = .ready ∧ (closeFrame w s).evu.raw.getLsbD 12 = s.fc.busStuck := by
  refine ⟨?_, ?_⟩
  · rw [closeFrame_eq, settle_slc_fields]
    rfl
  · have hraw : (closeFrame w s).evu.raw = (closeFrame w s).conditions := settle_raw _
    rw [hraw, conditions_stuck]
    simp

/-- With a window found open, or none, the clear leads to READY, and the raw set loses BUS_STUCK (R157, R173). -/
theorem busStuckClear_ready {s : State} (h : s.fc.busStuck = true) :
    (busStuckClear s).fc = { s.fc with busStuck := false, stuckFor := none } ∧ (busStuckClear s).slc.phase = .ready ∧
      (busStuckClear s).evu.raw.getLsbD 12 = false := by
  unfold busStuckClear
  rw [if_pos h]
  dsimp only
  split
  next w _ => exact ⟨by simp, closeFrame_ready w _⟩
  next => exact ⟨rfl, rfl, handEvents_stuck _ _⟩

/-- Settles O45: the pulse's one receive error at most, the HUNT after it, and the clear. -/
theorem stuckLineStopsReception : Obligations.StuckLineStopsReception := by
  unfold Obligations.StuckLineStopsReception
  refine fun s hlive => ⟨fun d hd hr hrec => ?set, fun hstuck => ?clear⟩
  case set =>
    obtain ⟨htec, hlink, hlo, hhi, hsame⟩ := stuckPulse_counts d hrec
    have hchanges : OnlyChanges [.slc, .fc, .sid, .ptab, .evu] s (busStuckSet d s) := fun b hb => by
      cases b <;> simp_all [SameBlock]
    refine ⟨busStuckSet d s, whenLive_of_live hlive, ?_⟩
    rw [busStuckSet_eq hd hr] at hchanges ⊢
    exact ⟨rfl, rfl, rfl, Slc.stuck_tx _, htec, hlo, hhi, hsame, hlink, handEvents_stuck _ _, hchanges⟩
  case clear =>
    obtain ⟨hfc, hphase, hraw⟩ := busStuckClear_ready hstuck
    exact ⟨busStuckClear s, whenLive_of_live hlive, hfc, hphase, hraw, fun b hb => by cases b <;> simp_all [SameBlock]⟩

end Sys2Proof.Machine
end

section
/-! SUPPORT. What a command other than RESET does to the link state, and that the loaded copy is replaced by none: O60. -/

namespace Sys2Proof.Machine

/-! ### The ways of the link state -/

/-- The ways of fault confinement that can move the link state (R149, R150, R153 to R156); every other one leaves it. -/
inductive Fc.LinkMove (f : Fc) : Fc → Prop where
  | same {g : Fc} (h : g.link = f.link) : f.LinkMove g
  | validMain (own : Bool) : f.LinkMove (f.validMain own)
  | bitError : f.LinkMove f.bitError
  | silence : f.LinkMove f.silence
  | detachCheck (t onTime : Nat) : f.LinkMove (f.detachCheck t onTime)
  | recover (conducting : Bool) : f.LinkMove (f.recover conducting)

/-- No way leads out of DETACHED latched: while the driver is cut off, no detach is judged, and the recovery needs DETACHED with
its timer running (R154 to R156, R158). -/
theorem Fc.LinkMove.latched {f g : Fc} (h : f.LinkMove g) (hlink : f.link = .latched) (hcut : f.cut = true) :
    g.link = .latched := by
  cases h with
  | same h => exact h.trans hlink
  | validMain own => simp [Fc.validMain, hlink]
  | bitError => simp [Fc.bitError, hlink]
  | silence =>
    unfold Fc.silence
    split
    · exact hlink
    · simp [hlink]
  | detachCheck t onTime => simp [Fc.detachCheck, hcut, hlink]
  | recover conducting => simp [Fc.recover, hlink]

theorem Fc.clearHistory_link (f : Fc) : f.clearHistory.link = f.link := by
  unfold Fc.clearHistory
  split
  · rfl
  · rfl

/-- The way of the link state from one state to another. -/
def LinkMoves (s t : State) : Prop := s.fc.LinkMove t.fc

theorem linkMoves_of_same {s t : State} (h : t.fc = s.fc) : LinkMoves s t := .same (by rw [h])

theorem linkMoves_of_validMain {s t : State} {own : Bool} (h : t.fc = s.fc.validMain own) : LinkMoves s t := by
  unfold LinkMoves
  rw [h]
  exact .validMain own

theorem LinkMoves.refl (s : State) : LinkMoves s s := .same rfl

theorem linkMoves_ite {c : Prop} [Decidable c] {s a b : State} (ha : LinkMoves s a) (hb : LinkMoves s b) :
    LinkMoves s (if c then a else b) := by
  split
  · exact ha
  · exact hb

theorem linkMoves_whenLive {s a t : State} (h : whenLive s a = .next t) (ha : LinkMoves s a) : LinkMoves s t :=
  whenLive_next h (.refl s) ha

/-- The hand-off leaves fault confinement as it finds it. -/
theorem linkMoves_handOff {s x : State} (h : LinkMoves s x) (old : LinkState) : LinkMoves s (linkHandOff old x) := by
  unfold LinkMoves at *
  simpa using h

theorem linkMoves_confine {f : Fc → Fc} {s : State} (l : Slc) (h : s.fc.LinkMove (f s.fc)) :
    LinkMoves s (confine f (s.setSlc l)) := linkMoves_handOff (x := (s.setSlc l).setFc (f s.fc)) h _

/-! ### Signalling -/

theorem linkMoves_malformed (f : Finding) (s : State) : LinkMoves s (malformed f s) := linkMoves_confine _ (.same rfl)

theorem linkMoves_replyError (w : Window) (f : ReplyFinding) (s : State) : LinkMoves s (replyError w f s) :=
  linkMoves_confine _ (.same rfl)

theorem linkMoves_startOfFrame (t pulse : Nat) (s : State) : LinkMoves s (startOfFrame t pulse s) := by
  unfold startOfFrame
  split
  · exact .same rfl
  · exact linkMoves_ite (.refl s) (linkMoves_ite (.same rfl) (.same rfl))
  · exact linkMoves_ite (.same rfl) (linkMoves_malformed _ s)
  · split
    · exact linkMoves_ite (.same rfl) (linkMoves_replyError _ _ s)
    · exact .same rfl

theorem linkMoves_transmitStart (sof : SofSent) (s : State) : LinkMoves s (transmitStart sof s) := by
  unfold transmitStart
  split
  · split
    · exact linkMoves_ite (.same rfl) (.same rfl)
    · exact .same rfl
  · exact .refl s

theorem linkMoves_ownComplete {k : Kind} {handle : Frame → State → State} (hh : ∀ f x, (handle f x).fc = x.fc) (s : State) :
    LinkMoves s (ownComplete k handle s) := by
  unfold ownComplete
  split
  · exact linkMoves_handOff (linkMoves_of_validMain (own := true) (by simp [hh])) _
  · exact .refl s

theorem linkMoves_frameReceived {f : Frame} {handle : LinkState → State → State} (hh : ∀ k x, (handle k x).fc = x.fc)
    (s : State) : LinkMoves s (frameReceived f handle s) := by
  have hdelivered : (deliver f (receiveMain f s)).fc = s.fc.validMain false := mainDelivered_fc f s
  unfold frameReceived
  split
  · split
    · exact linkMoves_handOff
        (linkMoves_ite (linkMoves_of_validMain ((hh _ _).trans hdelivered)) (linkMoves_of_validMain hdelivered)) _
    · exact linkMoves_malformed _ s
  · exact .refl s

theorem linkMoves_answerReceived (block : List Byte) (s : State) : LinkMoves s (answerReceived block s) := by
  unfold answerReceived
  split
  · exact linkMoves_ite (.refl s) (linkMoves_ite (linkMoves_replyError _ _ s) (linkMoves_of_same (by simp)))
  · exact linkMoves_of_same (by simp)

theorem linkMoves_replyBlockError (e : ReplyError) (s : State) : LinkMoves s (replyBlockError e s) := by
  unfold replyBlockError
  split
  · exact linkMoves_replyError _ _ s
  · exact .same rfl

/-- A stuck line leaves the link state (R157). -/
theorem stuckPulse_link (d : Nat) (s : State) : (stuckPulse d s).fc.link = s.fc.link := by
  rcases stuckPulse_fc d s with h | ⟨-, h⟩
  · rw [h]
  · rw [h]

theorem linkMoves_busStuckSet (d : Nat) (s : State) : LinkMoves s (busStuckSet d s) :=
  linkMoves_ite (.same (stuckPulse_link d s)) (.refl s)

theorem linkMoves_busStuckClear (s : State) : LinkMoves s (busStuckClear s) := by
  unfold busStuckClear
  dsimp only
  split
  · split
    · exact .same (by simp)
    · exact .same rfl
  · exact .refl s

/-! ### Every command -/

/-- Every command but RESET takes the link state one of these ways, or leaves it. -/
theorem exec_linkMoves {c : Instr} {s t : State} (hc : c ≠ .reset) (h : exec c s = .next t) : LinkMoves s t := by
  cases c with
  | reset => exact absurd rfl hc
  | resetRelease =>
    obtain rfl := Host.Outcome.next.inj h
    exact linkMoves_ite (.same rfl) (.refl s)
  | endOfLoading => exact linkMoves_whenLive h (linkMoves_ite (linkMoves_of_same (by simp)) (.refl s))
  | pollTimerExpiry =>
    refine linkMoves_whenLive h ?_
    split
    · exact .same rfl
    · exact .refl s
  | receiverReady | arbitrationLoss | sendSymbolError | reportTimerDue | spacingCountFull =>
    exact linkMoves_whenLive h (linkMoves_ite (.same rfl) (.refl s))
  | transmitStart => exact linkMoves_whenLive h (linkMoves_transmitStart _ s)
  | bitError => exact linkMoves_whenLive h (linkMoves_ite (linkMoves_confine _ .bitError) (.refl s))
  | malformedFrame => exact linkMoves_whenLive h (linkMoves_ite (linkMoves_malformed _ s) (.refl s))
  | ownNoticeComplete | ownAskComplete | ownStakeComplete | ownMusterComplete =>
    exact linkMoves_whenLive h (linkMoves_ownComplete (by simp) s)
  | noticeReceived | musterReceived | stakeReceived => exact linkMoves_whenLive h (linkMoves_frameReceived (by simp) s)
  | capability | status | statusClear | identity | gains | targets | storeState | page | unknownSelector =>
    exact linkMoves_whenLive h (linkMoves_frameReceived (handle := askAtEob _ _) (by simp) s)
  | arm | disarm | burn | lock | unknownCommand =>
    exact linkMoves_whenLive h (linkMoves_frameReceived (handle := fixtureAtEob _ _ _) (by simp) s)
  | answerBlockReceived => exact linkMoves_whenLive h (linkMoves_answerReceived _ s)
  | replyBlockError => exact linkMoves_whenLive h (linkMoves_replyBlockError _ s)
  | silenceExpiry => exact linkMoves_whenLive h (linkMoves_confine s.slc .silence)
  | detach t onTime => exact linkMoves_whenLive h (linkMoves_confine s.slc (.detachCheck t onTime))
  | detachRecovery conducting => exact linkMoves_whenLive h (linkMoves_confine s.slc (.recover conducting))
  | detachHistoryClear => exact linkMoves_whenLive h (.same s.fc.clearHistory_link)
  | busStuckSet => exact linkMoves_whenLive h (linkMoves_busStuckSet _ s)
  | busStuckClear => exact linkMoves_whenLive h (linkMoves_busStuckClear s)
  | startOfFrame => exact linkMoves_whenLive h (linkMoves_startOfFrame _ _ s)
  | fsyncEdge | substituteTick | temperatureReadCompletion | senseWindowOpen | senseWindowClose | countArrival
  | intervalTimerExpiry | settleTimeout | contestByteReceived | musterByteReceived | fixtureStatusByteReceived
  | ownReplyComplete | frameEof | listenEnd | slotStale | slotRemoval | driverTransferComplete | burnByteComplete
  | lockComplete => exact linkMoves_whenLive h (linkMoves_of_same (by simp))

/-- The end of loading takes a copy only where there is none yet (R164). -/
theorem exec_keepsLoaded {c : Instr} {s t : State} {p : Params} (hc : c ≠ .reset) (h : exec c s = .next t)
    (hp : s.csto.loaded = some p) : t.csto.loaded = some p := by
  by_cases hstarts : startsBlocks c = true
  · cases c with
    | reset => exact absurd rfl hc
    | endOfLoading => exact whenLive_next (P := fun u => u.csto.loaded = some p) h hp (by simp [hp])
    | _ => cases hstarts
  · exact (exec_loaded (by simpa using hstarts) h).trans hp

/-- Settles O60: no way of the link state leads out of DETACHED latched, and loading ends once. -/
theorem onlyResetUndoesLatchAndLoad : Obligations.OnlyResetUndoesLatchAndLoad := by
  unfold Obligations.OnlyResetUndoesLatchAndLoad
  intro c s t hcounts h hc
  refine ⟨fun hlink => ?_, fun p => exec_keepsLoaded hc h⟩
  obtain ⟨-, -, hcut⟩ := (countsInv_iff s).mp hcounts
  exact (exec_linkMoves hc h).latched hlink (hcut.mpr (by rw [hlink]; rfl))

end Sys2Proof.Machine
end

section
/-! SUPPORT. The byte under burn, the ways in which a command can move the store, and what they keep of the array: O4, O32, O46,
O56. -/

namespace Sys2Proof.Machine

/-! ### The array's bytes -/

theorem Memory.readMany_eq_iff {m : Memory} {a : Nat} {l : List Byte} :
    m.readMany a l.length = l ↔ ∀ k, k < l.length → m.read (a + k) = l.getD k 0 := by
  rw [List.ext_getElem_iff]
  simp +contextual [Memory.readMany]

/-- Programming leaves every byte but its own. -/
theorem Memory.read_program_of_ne {m : Memory} {a b : Nat} {bits : Byte} (h : m.wf = true) (hb : b ≠ a) :
    (m.program a bits).read b = m.read b := by rw [Memory.read_program h, if_neg hb]

theorem Memory.read_program_self {m : Memory} {a : Nat} {bits : Byte} (h : m.wf = true) :
    (m.program a bits).read a = m.read a ||| bits := by rw [Memory.read_program h, if_pos rfl]

/-! ### The byte under burn (R168, R169) -/

/-- Byte `a` is the one under burn, with the bits that the burn intends there: the data byte, or the marks of a LOCK. -/
def Csto.UnderBurn (c : Csto) (a : Nat) (intended : Byte) : Prop :=
  (∃ off data i, c.burn = some (.bytes off data i) ∧ a = off + i ∧ intended = data.getD i 0) ∨
    ∃ marks before, c.burn = some (.lock marks before) ∧ a = 127 ∧ intended = marks

/-- What `StoreInv` says of the store: it reads nothing else. -/
def Csto.Canonical (c : Csto) : Prop :=
  c.array.wf = true ∧
    match c.burn with
    | none => True
    | some (.bytes off data i) =>
      i < data.length ∧ off + data.length ≤ 127 ∧
        ∀ k, k < data.length → lockedByte (c.array.read 127) (off + k) = false
    | some (.lock marks before) => marks &&& 0xF8 = 0 ∧ before = c.array.read 127

theorem Csto.Canonical.wf {c : Csto} (h : c.Canonical) : c.array.wf = true := h.1

theorem storeInv_iff (s : State) : StoreInv s ↔ s.csto.Canonical := Iff.rfl

theorem Csto.canonical_bytes {c : Csto} {off i : Nat} {data : List Byte} (hb : c.burn = some (.bytes off data i)) :
    c.Canonical ↔ c.array.wf = true ∧ i < data.length ∧ off + data.length ≤ 127 ∧
      ∀ k, k < data.length → lockedByte (c.array.read 127) (off + k) = false := by
  rw [Csto.Canonical, hb]

theorem Csto.canonical_lock {c : Csto} {marks before : Byte} (hb : c.burn = some (.lock marks before)) :
    c.Canonical ↔ c.array.wf = true ∧ marks &&& 0xF8 = 0 ∧ before = c.array.read 127 := by
  rw [Csto.Canonical, hb]

theorem Csto.canonical_idle {c : Csto} (hb : c.burn = none) : c.Canonical ↔ c.array.wf = true := by
  simp [Csto.Canonical, hb]

/-- Array and burn are all that the canonical form reads. -/
theorem Csto.Canonical.congr {c d : Csto} (h : c.Canonical) (harray : d.array = c.array) (hburn : d.burn = c.burn) :
    d.Canonical := by
  unfold Csto.Canonical at *
  rwa [harray, hburn]

/-- No mark locks byte 127 itself. -/
theorem lockedByte_marks (marks : Byte) : lockedByte marks 127 = false := rfl

/-- The byte under burn lies in the array, and no mark locks it (R160, R167, R169). -/
theorem Csto.UnderBurn.unlocked {c : Csto} {a : Nat} {intended : Byte} (hu : c.UnderBurn a intended) (h : c.Canonical) :
    a < 128 ∧ lockedByte (c.array.read 127) a = false := by
  rcases hu with ⟨off, data, i, hb, rfl, -⟩ | ⟨marks, before, hb, rfl, -⟩
  · obtain ⟨-, hi, hend, hfree⟩ := (Csto.canonical_bytes hb).mp h
    exact ⟨by omega, hfree i hi⟩
  · exact ⟨by decide, lockedByte_marks _⟩

/-! ### Each operation, case by case -/

/-- A byte of a burn that has more to come (R168). -/
theorem Csto.burnByte_more {c : Csto} {off i : Nat} {data : List Byte} (missed : Byte)
    (hb : c.burn = some (.bytes off data i)) (hi : i + 1 < data.length) :
    c.burnByte missed = { c with array := c.array.program (off + i) (data.getD i 0 &&& ~~~missed),
                                 burn := some (.bytes off data (i + 1)) } := by
  simp [Csto.burnByte, hb, hi]

/-- The last byte of a burn: the latch clears, and the result is DONE where the whole burn reads back (R168). -/
theorem Csto.burnByte_last {c : Csto} {off i : Nat} {data : List Byte} (missed : Byte)
    (hb : c.burn = some (.bytes off data i)) (hi : data.length ≤ i + 1) :
    (c.burnByte missed).burn = none ∧ (c.burnByte missed).latch = false ∧
      (c.burnByte missed).lastResult =
        if ∀ k, k < data.length → (c.burnByte missed).array.read (off + k) = data.getD k 0 then .done else .verify := by
  simp [Csto.burnByte, hb, Nat.not_lt.mpr hi, Csto.burnEnd, Csto.verifies, Memory.readMany_eq_iff]

/-- Burning programs the byte under burn, but for the bits that the cells did not take (R168). -/
theorem Csto.burnByte_array {c : Csto} {off i : Nat} {data : List Byte} (missed : Byte)
    (hb : c.burn = some (.bytes off data i)) :
    (c.burnByte missed).array = c.array.program (off + i) (data.getD i 0 &&& ~~~missed) := by
  unfold Csto.burnByte
  rw [hb]
  dsimp only
  split
  · rfl
  · rfl

/-- Burning leaves the fixture enable, which is sampled at a reset release alone (R161). -/
theorem Csto.burnByte_fixtureEnable (c : Csto) (missed : Byte) : (c.burnByte missed).fixtureEnable = c.fixtureEnable := by
  dsimp only [Csto.burnByte]
  repeat' split
  all_goals rfl

theorem Csto.burnByte_idle {c : Csto} (missed : Byte) (hb : ∀ off data i, c.burn ≠ some (.bytes off data i)) :
    c.burnByte missed = c := by
  unfold Csto.burnByte
  split
  next hburn => exact absurd hburn (hb _ _ _)
  next => rfl

theorem Csto.lockByte_lock {c : Csto} {marks before : Byte} (hb : c.burn = some (.lock marks before)) :
    c.lockByte = { c with array := c.array.program 127 marks, burn := none, latch := false, lastResult := .done } := by
  simp [Csto.lockByte, hb, Csto.burnEnd]

theorem Csto.lockByte_idle {c : Csto} (hb : ∀ marks before, c.burn ≠ some (.lock marks before)) : c.lockByte = c := by
  unfold Csto.lockByte
  split
  next hburn => exact absurd hburn (hb _ _)
  next => rfl

/-- A reset in a burn programs the byte under burn with the free value's choice of its bits (R172; log 8). -/
theorem Csto.arrayAtReset_burning {c : Csto} {a : Nat} {intended : Byte} (hu : c.UnderBurn a intended) (k : Nat) :
    c.arrayAtReset k = c.array.program a (resetBits k intended) := by
  rcases hu with ⟨off, data, i, hb, rfl, rfl⟩ | ⟨marks, before, hb, rfl, rfl⟩
  · simp [Csto.arrayAtReset, hb]
  · simp [Csto.arrayAtReset, hb]

theorem Csto.arrayAtReset_idle {c : Csto} (hb : c.burn = none) (k : Nat) : c.arrayAtReset k = c.array := by
  simp [Csto.arrayAtReset, hb]

/-- The free value chooses among the intended bits. -/
theorem resetBits_intended (k : Nat) (intended : Byte) : resetBits k intended &&& intended = resetBits k intended := by
  rw [resetBits, BitVec.and_comm, ← BitVec.and_assoc, BitVec.and_self]

/-- Where a burn is in progress some byte is under burn. -/
theorem Csto.idle_or_underBurn (c : Csto) : c.burn = none ∨ ∃ a intended, c.UnderBurn a intended := by
  match hb : c.burn with
  | none => exact .inl rfl
  | some (.bytes off data i) => exact .inr ⟨_, _, .inl ⟨off, data, i, hb, rfl, rfl⟩⟩
  | some (.lock marks before) => exact .inr ⟨_, _, .inr ⟨marks, before, hb, rfl, rfl⟩⟩

/-! ### What a FIXTURE command decides (R165 to R169) -/

/-- A FIXTURE command leaves the array. -/
@[simp] theorem Csto.fixture_array (c : Csto) (code : Byte) (args : List Byte) : (c.fixture code args).1.array = c.array := by
  dsimp only [Csto.fixture, Csto.burnCommand, Csto.lockCommand]
  repeat' split
  all_goals rfl

/-- A BURN that starts one stays inside bytes 0 to 126 and off locked sections (R167). -/
theorem Csto.burnCommand_burn (c : Csto) (args : List Byte) :
    (c.burnCommand args).1.burn = c.burn ∨
      ∃ off data, (c.burnCommand args).1.burn = some (.bytes off data 0) ∧ 0 < data.length ∧ off + data.length ≤ 127 ∧
        ∀ k, k < data.length → lockedByte (c.array.read 127) (off + k) = false := by
  unfold Csto.burnCommand
  split
  · exact .inl rfl
  · split
    · exact .inl rfl
    next off data =>
      dsimp only
      split_ifs with hlen hend hlocked
      · exact .inl rfl
      · exact .inl rfl
      · exact .inl rfl
      · simp only [Bool.not_eq_true', Bool.and_eq_false_iff, decide_eq_false_iff_not] at hlen
        simp only [List.any_eq_true, List.mem_range, not_exists, not_and, Bool.not_eq_true] at hlocked
        exact .inr ⟨off.toNat, data, rfl, by omega, by omega, hlocked⟩

/-- A LOCK that starts carries marks of bits 0 to 2 and the value of byte 127 (R169). -/
theorem Csto.lockCommand_burn (c : Csto) (args : List Byte) :
    (c.lockCommand args).1.burn = c.burn ∨
      ∃ marks, (c.lockCommand args).1.burn = some (.lock marks (c.array.read 127)) ∧ marks &&& 0xF8 = 0 := by
  unfold Csto.lockCommand
  split
  · exact .inl rfl
  · split
    · exact .inl rfl
    next marks _ =>
      split
      · exact .inl rfl
      next hmarks =>
        simp only [Bool.or_eq_true, not_or, bne_iff_ne, ne_eq, not_not] at hmarks
        exact .inr ⟨marks, rfl, hmarks.2⟩

/-- A FIXTURE command keeps the canonical form: the burns that it starts pass the checks of R167 and R169. -/
theorem Csto.Canonical.fixture {c : Csto} (h : c.Canonical) (code : Byte) (args : List Byte) :
    (c.fixture code args).1.Canonical := by
  have hburn : (c.fixture code args).1.burn = c.burn ∨ (c.fixture code args).1.burn = (c.burnCommand args).1.burn ∨
      (c.fixture code args).1.burn = (c.lockCommand args).1.burn := by
    unfold Csto.fixture
    split_ifs
    all_goals simp
  have harray := c.fixture_array code args
  rcases hburn with hb | hb | hb
  · exact h.congr harray hb
  · rcases c.burnCommand_burn args with hsame | ⟨off, data, hstart, hlen, hend, hfree⟩
    · exact h.congr harray (hb.trans hsame)
    · rw [Csto.canonical_bytes (hb.trans hstart), harray]
      exact ⟨h.wf, hlen, hend, hfree⟩
  · rcases c.lockCommand_burn args with hsame | ⟨marks, hstart, hmarks⟩
    · exact h.congr harray (hb.trans hsame)
    · rw [Csto.canonical_lock (hb.trans hstart), harray]
      exact ⟨h.wf, hmarks, rfl⟩

/-! ### The moves of the store -/

/-- The ways in which a command can move array and burn: it leaves both, or it is a FIXTURE command, the end of a byte's burn,
the end of a LOCK, or a reset. -/
inductive Csto.Move (c : Csto) : Csto → Prop where
  | same {d : Csto} (harray : d.array = c.array) (hburn : d.burn = c.burn) : c.Move d
  | fixture (code : Byte) (args : List Byte) : c.Move (c.fixture code args).1
  | burnByte (missed : Byte) : c.Move (c.burnByte missed)
  | lockByte : c.Move c.lockByte
  | reset (k : Nat) : c.Move (Csto.reset (c.arrayAtReset k))

/-- A move leaves the array, or programs the byte under burn (R159). -/
theorem Csto.Move.array {c d : Csto} (h : c.Move d) :
    d.array = c.array ∨ ∃ a intended bits, c.UnderBurn a intended ∧ d.array = c.array.program a bits := by
  cases h with
  | same harray _ => exact .inl harray
  | fixture code args => exact .inl (c.fixture_array code args)
  | burnByte missed =>
    by_cases hb : ∃ off data i, c.burn = some (.bytes off data i)
    · obtain ⟨off, data, i, hb⟩ := hb
      exact .inr ⟨_, _, _, .inl ⟨off, data, i, hb, rfl, rfl⟩, Csto.burnByte_array missed hb⟩
    · rw [Csto.burnByte_idle missed (by simpa using hb)]
      exact .inl rfl
  | lockByte =>
    by_cases hb : ∃ marks before, c.burn = some (.lock marks before)
    · obtain ⟨marks, before, hb⟩ := hb
      exact .inr ⟨_, _, marks, .inr ⟨marks, before, hb, rfl, rfl⟩, by rw [Csto.lockByte_lock hb]⟩
    · rw [Csto.lockByte_idle (by simpa using hb)]
      exact .inl rfl
  | reset k =>
    rcases c.idle_or_underBurn with hb | ⟨a, intended, hu⟩
    · exact .inl (Csto.arrayAtReset_idle hb k)
    · exact .inr ⟨a, intended, _, hu, Csto.arrayAtReset_burning hu k⟩

/-- A move keeps the array's canonical form. -/
theorem Csto.Move.wf {c d : Csto} (m : c.Move d) (h : c.Canonical) : d.array.wf = true := by
  rcases m.array with e | ⟨a, intended, bits, hu, e⟩
  · rw [e]
    exact h.wf
  · rw [e]
    exact Memory.wf_program h.wf (hu.unlocked h).1

/-- A move keeps the whole canonical form: a burn that goes on has its marks as they were, byte 127 not being among its bytes. -/
theorem Csto.Move.canonical {c d : Csto} (m : c.Move d) (h : c.Canonical) : d.Canonical := by
  have hwf := m.wf h
  cases m with
  | same harray hburn => exact h.congr harray hburn
  | fixture code args => exact h.fixture code args
  | burnByte missed =>
    by_cases hb : ∃ off data i, c.burn = some (.bytes off data i)
    · obtain ⟨off, data, i, hb⟩ := hb
      obtain ⟨hold, hi, hend, hfree⟩ := (Csto.canonical_bytes hb).mp h
      by_cases hmore : i + 1 < data.length
      · have hmarks : (c.burnByte missed).array.read 127 = c.array.read 127 := by
          rw [Csto.burnByte_array missed hb, Memory.read_program_of_ne hold (by omega)]
        have hnext : (c.burnByte missed).burn = some (.bytes off data (i + 1)) := by rw [Csto.burnByte_more missed hb hmore]
        rw [Csto.canonical_bytes hnext, hmarks]
        exact ⟨hwf, hmore, hend, hfree⟩
      · obtain ⟨hended, -⟩ := Csto.burnByte_last missed hb (Nat.not_lt.mp hmore)
        exact (Csto.canonical_idle hended).mpr hwf
    · rwa [Csto.burnByte_idle missed (by simpa using hb)]
  | lockByte =>
    by_cases hb : ∃ marks before, c.burn = some (.lock marks before)
    · obtain ⟨marks, before, hb⟩ := hb
      have hended : c.lockByte.burn = none := by rw [Csto.lockByte_lock hb]
      exact (Csto.canonical_idle hended).mpr hwf
    · rwa [Csto.lockByte_idle (by simpa using hb)]
  | reset k => exact (Csto.canonical_idle rfl).mpr hwf

/-- A move clears no bit (R159). -/
theorem Csto.Move.gains {c d : Csto} (m : c.Move d) (h : c.Canonical) (a : Nat) :
    d.array.read a &&& c.array.read a = c.array.read a := by
  rcases m.array with e | ⟨b, intended, bits, -, e⟩
  · rw [e, BitVec.and_self]
  · rw [e]
    exact Memory.program_keeps h.wf

/-- A move leaves every locked byte (R160): the byte under burn is not locked. -/
theorem Csto.Move.locked {c d : Csto} (m : c.Move d) (h : c.Canonical) {a : Nat}
    (ha : lockedByte (c.array.read 127) a = true) : d.array.read a = c.array.read a := by
  rcases m.array with e | ⟨b, intended, bits, hu, e⟩
  · rw [e]
  · have hne : a ≠ b := by
      rintro rfl
      exact absurd ha (by simp [(hu.unlocked h).2])
    rw [e, Memory.read_program_of_ne h.wf hne]

/-! ### Every command moves the store in one of these ways -/

theorem storeMoves_same {s t : State} (h : t.csto = s.csto) : s.csto.Move t.csto := .same (by rw [h]) (by rw [h])

theorem storeMoves_ite {p : Prop} [Decidable p] {s a b : State} (ha : s.csto.Move a.csto) (hb : s.csto.Move b.csto) :
    s.csto.Move (if p then a else b).csto := by
  split
  · exact ha
  · exact hb

theorem storeMoves_whenLive {s a t : State} (h : whenLive s a = .next t) (ha : s.csto.Move a.csto) : s.csto.Move t.csto :=
  whenLive_next (P := fun u => s.csto.Move u.csto) h (storeMoves_same rfl) ha

theorem storeMoves_fixtureAtEob (tgt code : Byte) (args : List Byte) (link : LinkState) (s : State) :
    s.csto.Move (fixtureAtEob tgt code args link s).csto := by
  unfold fixtureAtEob
  split
  · have hdecided : s.csto.Move (s.setCsto (s.csto.fixture code args).1).csto := .fixture code args
    exact storeMoves_ite (storeMoves_ite hdecided hdecided) (storeMoves_same rfl)
  · exact storeMoves_same rfl

/-- A FIXTURE main part: its delivery leaves the store, and its handling at the EOB is the store's decision (R165). -/
theorem storeMoves_fixtureReceived (src tgt code : Byte) (args : List Byte) (s : State) :
    s.csto.Move (fixtureReceived src tgt code args s).csto := by
  unfold fixtureReceived frameReceived
  refine storeMoves_ite (storeMoves_ite ?_ (storeMoves_same (by simp))) (storeMoves_same rfl)
  have hdelivered (f : Frame) : (deliver f (receiveMain f s)).csto = s.csto := by simp
  simp only [linkHandOff_frame]
  refine storeMoves_ite ?_ (storeMoves_same (hdelivered _))
  rw [← hdelivered]
  exact storeMoves_fixtureAtEob _ _ _ _ _

theorem exec_storeMoves {c : Instr} {s t : State} (h : exec c s = .next t) : s.csto.Move t.csto := by
  cases c with
  | reset => exact Host.Outcome.next.inj h ▸ .reset s.freeReads
  | resetRelease =>
    obtain rfl := Host.Outcome.next.inj h
    exact storeMoves_ite (.same rfl rfl) (storeMoves_same rfl)
  | endOfLoading =>
    refine storeMoves_whenLive h (storeMoves_ite ?_ (storeMoves_same rfl))
    rw [endOfLoading_csto]
    exact .same rfl rfl
  | pollTimerExpiry =>
    refine storeMoves_whenLive h ?_
    split
    · exact storeMoves_same rfl
    · exact storeMoves_same rfl
  | burnByteComplete missed => exact storeMoves_whenLive h (.burnByte missed)
  | lockComplete => exact storeMoves_whenLive h .lockByte
  | arm | disarm | burn | lock | unknownCommand =>
    exact storeMoves_whenLive h (storeMoves_fixtureReceived _ _ _ _ s)
  | receiverReady | arbitrationLoss | bitError | sendSymbolError | malformedFrame | reportTimerDue | spacingCountFull =>
    exact storeMoves_whenLive h (storeMoves_ite (storeMoves_same (by simp)) (storeMoves_same rfl))
  | _ => exact storeMoves_whenLive h (storeMoves_same (by simp))

/-- Line time moves the signalling alone, and each command moves the store in one of these ways. -/
theorem step_storeMoves {s t : State} (h : step s = .next t) : s.csto.Move t.csto := by
  rcases step_cases h with rfl | rfl | ⟨c, rest, h⟩
  · exact storeMoves_same rfl
  · exact storeMoves_same rfl
  · exact exec_storeMoves (s := s.setPending rest) h

/-- Settles O46: every move of the store keeps its canonical form. -/
theorem storeInvariantKept : Obligations.StoreInvariantKept := by
  unfold Obligations.StoreInvariantKept
  intro s t hs h
  exact (storeInv_iff t).mpr ((step_storeMoves h).canonical ((storeInv_iff s).mp hs))

/-- Settles O56: a move programs the byte under burn at most, and that byte is not locked. -/
theorem arrayOnlyGainsBits : Obligations.ArrayOnlyGainsBits := by
  unfold Obligations.ArrayOnlyGainsBits
  intro s t hs h
  have hc := (storeInv_iff s).mp hs
  exact ⟨(step_storeMoves h).gains hc, fun a => (step_storeMoves h).locked hc⟩

/-- Settles O4: the array at reset is the old one with the byte under burn programmed, and the free value keeps to its bits. -/
theorem resetCutsABurnOff : Obligations.ResetCutsABurnOff := by
  unfold Obligations.ResetCutsABurnOff
  intro s a0 intended hwf hu
  have harray : (resetState s).csto.array = s.csto.array.program a0 (resetBits s.freeReads intended) :=
    Csto.arrayAtReset_burning hu s.freeReads
  refine ⟨resetState s, rfl, rfl, rfl, rfl, fun a ha => ?_, resetBits s.freeReads intended, resetBits_intended _ _, ?_⟩
  · rw [harray, Memory.read_program_of_ne hwf ha]
  · rw [harray, Memory.read_program_self hwf]

/-- Settles O32: the byte's burn with more to come and as the last, and the LOCK's. -/
theorem burningSetsBits : Obligations.BurningSetsBits := by
  unfold Obligations.BurningSetsBits
  refine fun s hlive hwf => ⟨fun off data i missed hb hi => ?byte, fun marks before hb => ?lock⟩
  case byte =>
    have harray := Csto.burnByte_array missed hb
    refine ⟨s.setCsto (s.csto.burnByte missed), whenLive_of_live hlive, ?_, fun b hne => ?_, fun hmore => ?_, fun hlast => ?_,
      Csto.burnByte_loaded _ _, Csto.burnByte_fixtureEnable _ _, onlyChanges_setCsto _ _⟩
    · rw [State.setCsto_csto, harray, Memory.read_program_self hwf]
    · rw [State.setCsto_csto, harray, Memory.read_program_of_ne hwf hne]
    · rw [State.setCsto_csto, Csto.burnByte_more missed hb hmore]
      exact ⟨rfl, rfl, rfl⟩
    · exact Csto.burnByte_last missed hb (Nat.le_of_eq hlast.symm)
  case lock =>
    have hended := Csto.lockByte_lock hb
    refine ⟨s.setCsto s.csto.lockByte, whenLive_of_live hlive, ?_⟩
    rw [State.setCsto_csto, hended]
    refine ⟨Memory.read_program_self hwf, fun b hne => Memory.read_program_of_ne hwf hne, rfl, rfl, rfl, rfl, rfl, ?_⟩
    exact onlyChanges_setCsto _ _

end Sys2Proof.Machine
end

section
/-! SUPPORT. The load: the checks of the two sections byte by byte, and the values that each gives: O7. -/

namespace Sys2Proof.Machine

/-! ### The CHAR section (R162) -/

/-- The checks on one channel block: L_ref, S_ref, the curve's fixed point and its range. -/
theorem charChannelAt_valid_iff (m : Memory) (base : Nat) :
    (charChannelAt m base).valid = true ↔ 256 ≤ m.word base ∧ m.word (base + 2) ≠ 0 ∧ m.word (base + 10) = 32768 ∧
      ∀ i < 9, 16384 ≤ m.word (base + 4 + 2 * i) ∧ m.word (base + 4 + 2 * i) ≤ 40960 := by
  have hfixed : (charChannelAt m base).curve.getD 3 0 = m.word (base + 10) := rfl
  simp only [CharChannel.valid, Bool.and_eq_true, decide_eq_true_eq, bne_iff_ne, hfixed]
  simp only [charChannelAt, List.all_map, List.all_eq_true, List.mem_range, Function.comp_apply, Bool.and_eq_true,
    decide_eq_true_eq]
  exact ⟨fun ⟨⟨⟨hl, hs⟩, hrange⟩, hfixed⟩ => ⟨hl, hs, hfixed, hrange⟩,
    fun ⟨hl, hs, hfixed, hrange⟩ => ⟨⟨⟨hl, hs⟩, hrange⟩, hfixed⟩⟩

/-- The fixed bytes of the section: mark, version, length, and the bytes that are 0. -/
theorem charFixed_iff (m : Memory) :
    (m.readMany 0 8 = [0x45, 0x54, 0x34, 0x36, 0x01, 80, 0, 0] ∧ m.readMany 74 4 = [0, 0, 0, 0]) ↔
      m.readMany 0 4 = [0x45, 0x54, 0x34, 0x36] ∧ m.read 4 = 0x01 ∧ m.read 5 = 80 ∧
        ∀ a ∈ [6, 7, 74, 75, 76, 77], m.read a = 0 := by
  simp only [Memory.readMany, zero_add, List.range_succ, List.range_zero, List.nil_append, List.cons_append, List.map_cons,
    List.map_nil, BitVec.ofNat_eq_ofNat, List.cons.injEq, and_true, add_zero, Nat.reduceAdd, List.mem_cons, List.not_mem_nil,
    or_false, forall_eq_or_imp, forall_eq]
  tauto

theorem charValid_iff (m : Memory) : charValid m = true ↔ CharSectionValid m := by
  have hblocks (P : Nat → Prop) : (∀ base ∈ [8, 30, 52], P base) ↔ P 8 ∧ P 30 ∧ P 52 := by simp
  rw [CharSectionValid, hblocks]
  simp only [charValid, charBlocks, Bool.and_eq_true, decide_eq_true_eq, charChannelAt_valid_iff]
  constructor
  · rintro ⟨⟨⟨⟨⟨hhead, hreserved⟩, hcrc⟩, hr⟩, hg⟩, hb⟩
    obtain ⟨hmark, hversion, hlength, hzero⟩ := (charFixed_iff m).mp ⟨hhead, hreserved⟩
    exact ⟨hmark, hversion, hlength, hzero, hcrc, hr, hg, hb⟩
  · rintro ⟨hmark, hversion, hlength, hzero, hcrc, hr, hg, hb⟩
    obtain ⟨hhead, hreserved⟩ := (charFixed_iff m).mpr ⟨hmark, hversion, hlength, hzero⟩
    exact ⟨⟨⟨⟨⟨hhead, hreserved⟩, hcrc⟩, hr⟩, hg⟩, hb⟩

theorem charChannelAt_holds (m : Memory) (base : Nat) : HoldsBlock m base (charChannelAt m base) := by
  refine ⟨rfl, rfl, by simp [charChannelAt], fun i hi => ?_⟩
  simp [charChannelAt, hi]

theorem loadChars_valid {m : Memory} (h : CharSectionValid m) : loadChars m = charBlocks m :=
  if_pos ((charValid_iff m).mpr h)

theorem loadChars_nominal {m : Memory} (h : ¬CharSectionValid m) : loadChars m = Rgb.all nominalChannel :=
  if_neg ((charValid_iff m).not.mpr h)

/-! ### The SET section (R163) -/

theorem setValid_iff (m : Memory) : setValid m = true ↔ SetSectionValid m := by simp [setValid, SetSectionValid]

theorem loadParams_stored {m : Memory} (h : SetSectionValid m) :
    loadParams m = (storedParams m (loadChars m) (!charValid m)).relate := if_pos ((setValid_iff m).mpr h)

theorem loadParams_default {m : Memory} (h : ¬SetSectionValid m) :
    loadParams m = defaultParams (loadChars m) (!charValid m) := if_neg ((setValid_iff m).not.mpr h)

/-- Each stored field is its byte, clamped, and the relations come after the clamps. -/
theorem relate_storedParams_settingsStored (m : Memory) (chars : Rgb CharChannel) (uncal : Bool) :
    SettingsStored m (storedParams m chars uncal).relate :=
  ⟨rfl, rfl, ⟨_, rfl, rfl⟩, rfl, rfl, rfl, rfl, rfl, ⟨_, rfl, rfl⟩, rfl, rfl, rfl⟩

theorem defaultParams_settingsDefault (chars : Rgb CharChannel) (uncal : Bool) :
    SettingsDefault (defaultParams chars uncal) := ⟨rfl, rfl, rfl, rfl, rfl, rfl, rfl, rfl, rfl, rfl, rfl, rfl⟩

/-! ### The loaded copy -/

/-- The settings leave what the CHAR section gives. -/
theorem loadParams_chars (m : Memory) :
    (loadParams m).chars = loadChars m ∧ (loadParams m).uncal = !charValid m := by
  dsimp only [loadParams]
  split
  · exact ⟨rfl, rfl⟩
  · exact ⟨rfl, rfl⟩

theorem loadParams_uncal_iff (m : Memory) : (loadParams m).uncal = false ↔ CharSectionValid m := by
  rw [(loadParams_chars m).2, Bool.not_eq_false', charValid_iff]

theorem loadParams_setDefault_iff (m : Memory) : (loadParams m).setDefault = false ↔ SetSectionValid m := by
  by_cases h : SetSectionValid m
  · simp [loadParams_stored h, h, Params.relate, storedParams]
  · simp [loadParams_default h, h, defaultParams]

/-- Settles O7: CHAR from its checks, settings from theirs, and every value in its range (`loadParams_inRange`). -/
theorem loadedCopyInRange : Obligations.LoadedCopyInRange := by
  unfold Obligations.LoadedCopyInRange
  intro m
  obtain ⟨hchars, -⟩ := loadParams_chars m
  refine ⟨loadParams_inRange m, loadParams_uncal_iff m, fun h => ?held, fun h c => ?nominal, loadParams_setDefault_iff m,
    fun h => ?stored, fun h => ?default⟩
  case held =>
    rw [hchars, loadChars_valid h]
    exact ⟨charChannelAt_holds m 8, charChannelAt_holds m 30, charChannelAt_holds m 52⟩
  case nominal =>
    rw [hchars, loadChars_nominal h]
    cases c with
    | r | g | b => rfl
  case stored =>
    rw [loadParams_stored h]
    exact relate_storedParams_settingsStored m _ _
  case default =>
    rw [loadParams_default h]
    exact defaultParams_settingsDefault _ _

end Sys2Proof.Machine
end
